-- ==== Sys2Proof/Word.lean ====
section
/-! DEFINITION. The word types of the core (00_scope.md rules R9 and R11): data bytes and 16-bit addresses. -/

namespace Sys2Proof

/-- A byte, the unit of every bus access (R9, R62). -/
abbrev Byte := BitVec 8

/-- A 16-bit CPU-bus address or program counter (R9, R25). -/
abbrev Word := BitVec 16

/-- A 14-bit PPU-bus address (R60, R360). -/
abbrev PpuAddr := BitVec 14

end Sys2Proof
end

