-- ==== Sys2Proof/Syntax.lean ====
section
/-! DEFINITION. The instruction set as syntax: one constructor for each of the 256 rows of spec/opcode_table.json
(30_encoding.md rule R118), in the order of the opcode byte, the rows with an operand first (Lean's compiler gives an
operand-carrying constructor no index above 244), and the names of addressing modes and instruction classes.
A row's operand is the byte or the little-endian word that follows its opcode (R100); implied rows and BRK, whose padding
byte is never read (R254), carry none. -/

namespace Sys2Proof

/-- The twelve addressing modes, in the order of R101. -/
inductive Mode
  | imp
  | imm
  | zp0
  | zpx
  | zpy
  | rel
  | abs
  | abx
  | aby
  | ind
  | izx
  | izy
  deriving DecidableEq, Repr

/-- How many operand bytes a mode has (R100). -/
def Mode.operandBytes : Mode → Nat
  | .imp => 0
  | .imm | .zp0 | .zpx | .zpy | .rel | .izx | .izy => 1
  | .abs | .abx | .aby | .ind => 2

/-- The six instruction classes of R116; no instruction is in class Read-Write. -/
inductive AccessClass
  | read
  | write
  | readModifyWrite
  | readWrite
  | branch
  | special
  deriving DecidableEq, Repr

/-- The 256 rows of the opcode table (R118). A name is the mnemonic and the mode; the rows whose mnemonic and mode do
not tell them apart (`*NOP`, `*JAM`, `*ANC`) are named by their opcode byte, with `unop` for the unofficial `*NOP`. -/
inductive Instr
  /-- `$01` ORA (z,X) (IZX, R174). -/
  | oraIzx (z : Byte)
  /-- `$03` *SLO (z,X) (IZX, R267). -/
  | sloIzx (z : Byte)
  /-- `$04` *NOP z (ZP0, R267). -/
  | unop04 (z : Byte)
  /-- `$05` ORA z (ZP0, R174). -/
  | oraZp0 (z : Byte)
  /-- `$06` ASL z (ZP0, R182). -/
  | aslZp0 (z : Byte)
  /-- `$07` *SLO z (ZP0, R267). -/
  | sloZp0 (z : Byte)
  /-- `$09` ORA #imm (IMM, R174). -/
  | oraImm (imm : Byte)
  /-- `$0B` *ANC #imm (IMM, R267). -/
  | anc0B (imm : Byte)
  /-- `$0C` *NOP addr (ABS, R267). -/
  | unop0C (addr : Word)
  /-- `$0D` ORA addr (ABS, R174). -/
  | oraAbs (addr : Word)
  /-- `$0E` ASL addr (ABS, R182). -/
  | aslAbs (addr : Word)
  /-- `$0F` *SLO addr (ABS, R267). -/
  | sloAbs (addr : Word)
  /-- `$10` BPL off (REL, R216). -/
  | bpl (off : Byte)
  /-- `$11` ORA (z),Y (IZY, R174). -/
  | oraIzy (z : Byte)
  /-- `$13` *SLO (z),Y (IZY, R267). -/
  | sloIzy (z : Byte)
  /-- `$14` *NOP z,X (ZPX, R267). -/
  | unop14 (z : Byte)
  /-- `$15` ORA z,X (ZPX, R174). -/
  | oraZpx (z : Byte)
  /-- `$16` ASL z,X (ZPX, R182). -/
  | aslZpx (z : Byte)
  /-- `$17` *SLO z,X (ZPX, R267). -/
  | sloZpx (z : Byte)
  /-- `$19` ORA base,Y (ABY, R174). -/
  | oraAby (base : Word)
  /-- `$1B` *SLO base,Y (ABY, R267). -/
  | sloAby (base : Word)
  /-- `$1C` *NOP base,X (ABX, R267). -/
  | unop1C (base : Word)
  /-- `$1D` ORA base,X (ABX, R174). -/
  | oraAbx (base : Word)
  /-- `$1E` ASL base,X (ABX, R182). -/
  | aslAbx (base : Word)
  /-- `$1F` *SLO base,X (ABX, R267). -/
  | sloAbx (base : Word)
  /-- `$20` JSR addr (ABS, R251). -/
  | jsr (addr : Word)
  /-- `$21` AND (z,X) (IZX, R173). -/
  | andIzx (z : Byte)
  /-- `$23` *RLA (z,X) (IZX, R267). -/
  | rlaIzx (z : Byte)
  /-- `$24` BIT z (ZP0, R186). -/
  | bitZp0 (z : Byte)
  /-- `$25` AND z (ZP0, R173). -/
  | andZp0 (z : Byte)
  /-- `$26` ROL z (ZP0, R184). -/
  | rolZp0 (z : Byte)
  /-- `$27` *RLA z (ZP0, R267). -/
  | rlaZp0 (z : Byte)
  /-- `$29` AND #imm (IMM, R173). -/
  | andImm (imm : Byte)
  /-- `$2B` *ANC #imm (IMM, R267). -/
  | anc2B (imm : Byte)
  /-- `$2C` BIT addr (ABS, R186). -/
  | bitAbs (addr : Word)
  /-- `$2D` AND addr (ABS, R173). -/
  | andAbs (addr : Word)
  /-- `$2E` ROL addr (ABS, R184). -/
  | rolAbs (addr : Word)
  /-- `$2F` *RLA addr (ABS, R267). -/
  | rlaAbs (addr : Word)
  /-- `$30` BMI off (REL, R215). -/
  | bmi (off : Byte)
  /-- `$31` AND (z),Y (IZY, R173). -/
  | andIzy (z : Byte)
  /-- `$33` *RLA (z),Y (IZY, R267). -/
  | rlaIzy (z : Byte)
  /-- `$34` *NOP z,X (ZPX, R267). -/
  | unop34 (z : Byte)
  /-- `$35` AND z,X (ZPX, R173). -/
  | andZpx (z : Byte)
  /-- `$36` ROL z,X (ZPX, R184). -/
  | rolZpx (z : Byte)
  /-- `$37` *RLA z,X (ZPX, R267). -/
  | rlaZpx (z : Byte)
  /-- `$39` AND base,Y (ABY, R173). -/
  | andAby (base : Word)
  /-- `$3B` *RLA base,Y (ABY, R267). -/
  | rlaAby (base : Word)
  /-- `$3C` *NOP base,X (ABX, R267). -/
  | unop3C (base : Word)
  /-- `$3D` AND base,X (ABX, R173). -/
  | andAbx (base : Word)
  /-- `$3E` ROL base,X (ABX, R184). -/
  | rolAbx (base : Word)
  /-- `$3F` *RLA base,X (ABX, R267). -/
  | rlaAbx (base : Word)
  /-- `$41` EOR (z,X) (IZX, R175). -/
  | eorIzx (z : Byte)
  /-- `$43` *SRE (z,X) (IZX, R267). -/
  | sreIzx (z : Byte)
  /-- `$44` *NOP z (ZP0, R267). -/
  | unop44 (z : Byte)
  /-- `$45` EOR z (ZP0, R175). -/
  | eorZp0 (z : Byte)
  /-- `$46` LSR z (ZP0, R183). -/
  | lsrZp0 (z : Byte)
  /-- `$47` *SRE z (ZP0, R267). -/
  | sreZp0 (z : Byte)
  /-- `$49` EOR #imm (IMM, R175). -/
  | eorImm (imm : Byte)
  /-- `$4B` *ALR #imm (IMM, R267). -/
  | alr (imm : Byte)
  /-- `$4C` JMP addr (ABS, R250). -/
  | jmpAbs (addr : Word)
  /-- `$4D` EOR addr (ABS, R175). -/
  | eorAbs (addr : Word)
  /-- `$4E` LSR addr (ABS, R183). -/
  | lsrAbs (addr : Word)
  /-- `$4F` *SRE addr (ABS, R267). -/
  | sreAbs (addr : Word)
  /-- `$50` BVC off (REL, R217). -/
  | bvc (off : Byte)
  /-- `$51` EOR (z),Y (IZY, R175). -/
  | eorIzy (z : Byte)
  /-- `$53` *SRE (z),Y (IZY, R267). -/
  | sreIzy (z : Byte)
  /-- `$54` *NOP z,X (ZPX, R267). -/
  | unop54 (z : Byte)
  /-- `$55` EOR z,X (ZPX, R175). -/
  | eorZpx (z : Byte)
  /-- `$56` LSR z,X (ZPX, R183). -/
  | lsrZpx (z : Byte)
  /-- `$57` *SRE z,X (ZPX, R267). -/
  | sreZpx (z : Byte)
  /-- `$59` EOR base,Y (ABY, R175). -/
  | eorAby (base : Word)
  /-- `$5B` *SRE base,Y (ABY, R267). -/
  | sreAby (base : Word)
  /-- `$5C` *NOP base,X (ABX, R267). -/
  | unop5C (base : Word)
  /-- `$5D` EOR base,X (ABX, R175). -/
  | eorAbx (base : Word)
  /-- `$5E` LSR base,X (ABX, R183). -/
  | lsrAbx (base : Word)
  /-- `$5F` *SRE base,X (ABX, R267). -/
  | sreAbx (base : Word)
  /-- `$61` ADC (z,X) (IZX, R171). -/
  | adcIzx (z : Byte)
  /-- `$63` *RRA (z,X) (IZX, R267). -/
  | rraIzx (z : Byte)
  /-- `$64` *NOP z (ZP0, R267). -/
  | unop64 (z : Byte)
  /-- `$65` ADC z (ZP0, R171). -/
  | adcZp0 (z : Byte)
  /-- `$66` ROR z (ZP0, R185). -/
  | rorZp0 (z : Byte)
  /-- `$67` *RRA z (ZP0, R267). -/
  | rraZp0 (z : Byte)
  /-- `$69` ADC #imm (IMM, R171). -/
  | adcImm (imm : Byte)
  /-- `$6B` *ARR #imm (IMM, R267). -/
  | arr (imm : Byte)
  /-- `$6C` JMP (ptr) (IND, R250). -/
  | jmpInd (ptr : Word)
  /-- `$6D` ADC addr (ABS, R171). -/
  | adcAbs (addr : Word)
  /-- `$6E` ROR addr (ABS, R185). -/
  | rorAbs (addr : Word)
  /-- `$6F` *RRA addr (ABS, R267). -/
  | rraAbs (addr : Word)
  /-- `$70` BVS off (REL, R218). -/
  | bvs (off : Byte)
  /-- `$71` ADC (z),Y (IZY, R171). -/
  | adcIzy (z : Byte)
  /-- `$73` *RRA (z),Y (IZY, R267). -/
  | rraIzy (z : Byte)
  /-- `$74` *NOP z,X (ZPX, R267). -/
  | unop74 (z : Byte)
  /-- `$75` ADC z,X (ZPX, R171). -/
  | adcZpx (z : Byte)
  /-- `$76` ROR z,X (ZPX, R185). -/
  | rorZpx (z : Byte)
  /-- `$77` *RRA z,X (ZPX, R267). -/
  | rraZpx (z : Byte)
  /-- `$79` ADC base,Y (ABY, R171). -/
  | adcAby (base : Word)
  /-- `$7B` *RRA base,Y (ABY, R267). -/
  | rraAby (base : Word)
  /-- `$7C` *NOP base,X (ABX, R267). -/
  | unop7C (base : Word)
  /-- `$7D` ADC base,X (ABX, R171). -/
  | adcAbx (base : Word)
  /-- `$7E` ROR base,X (ABX, R185). -/
  | rorAbx (base : Word)
  /-- `$7F` *RRA base,X (ABX, R267). -/
  | rraAbx (base : Word)
  /-- `$80` *NOP #imm (IMM, R267). -/
  | unop80 (imm : Byte)
  /-- `$81` STA (z,X) (IZX, R144). -/
  | staIzx (z : Byte)
  /-- `$82` *NOP #imm (IMM, R267). -/
  | unop82 (imm : Byte)
  /-- `$83` *SAX (z,X) (IZX, R267). -/
  | saxIzx (z : Byte)
  /-- `$84` STY z (ZP0, R146). -/
  | styZp0 (z : Byte)
  /-- `$85` STA z (ZP0, R144). -/
  | staZp0 (z : Byte)
  /-- `$86` STX z (ZP0, R145). -/
  | stxZp0 (z : Byte)
  /-- `$87` *SAX z (ZP0, R267). -/
  | saxZp0 (z : Byte)
  /-- `$89` *NOP #imm (IMM, R267). -/
  | unop89 (imm : Byte)
  /-- `$8B` *ANE #imm (IMM, R267). -/
  | ane (imm : Byte)
  /-- `$8C` STY addr (ABS, R146). -/
  | styAbs (addr : Word)
  /-- `$8D` STA addr (ABS, R144). -/
  | staAbs (addr : Word)
  /-- `$8E` STX addr (ABS, R145). -/
  | stxAbs (addr : Word)
  /-- `$8F` *SAX addr (ABS, R267). -/
  | saxAbs (addr : Word)
  /-- `$90` BCC off (REL, R211). -/
  | bcc (off : Byte)
  /-- `$91` STA (z),Y (IZY, R144). -/
  | staIzy (z : Byte)
  /-- `$93` *SHA (z),Y (IZY, R267). -/
  | shaIzy (z : Byte)
  /-- `$94` STY z,X (ZPX, R146). -/
  | styZpx (z : Byte)
  /-- `$95` STA z,X (ZPX, R144). -/
  | staZpx (z : Byte)
  /-- `$96` STX z,Y (ZPY, R145). -/
  | stxZpy (z : Byte)
  /-- `$97` *SAX z,Y (ZPY, R267). -/
  | saxZpy (z : Byte)
  /-- `$99` STA base,Y (ABY, R144). -/
  | staAby (base : Word)
  /-- `$9B` *TAS base,Y (ABY, R267). -/
  | tas (base : Word)
  /-- `$9C` *SHY base,X (ABX, R267). -/
  | shy (base : Word)
  /-- `$9D` STA base,X (ABX, R144). -/
  | staAbx (base : Word)
  /-- `$9E` *SHX base,Y (ABY, R267). -/
  | shx (base : Word)
  /-- `$9F` *SHA base,Y (ABY, R267). -/
  | shaAby (base : Word)
  /-- `$A0` LDY #imm (IMM, R143). -/
  | ldyImm (imm : Byte)
  /-- `$A1` LDA (z,X) (IZX, R141). -/
  | ldaIzx (z : Byte)
  /-- `$A2` LDX #imm (IMM, R142). -/
  | ldxImm (imm : Byte)
  /-- `$A3` *LAX (z,X) (IZX, R267). -/
  | laxIzx (z : Byte)
  /-- `$A4` LDY z (ZP0, R143). -/
  | ldyZp0 (z : Byte)
  /-- `$A5` LDA z (ZP0, R141). -/
  | ldaZp0 (z : Byte)
  /-- `$A6` LDX z (ZP0, R142). -/
  | ldxZp0 (z : Byte)
  /-- `$A7` *LAX z (ZP0, R267). -/
  | laxZp0 (z : Byte)
  /-- `$A9` LDA #imm (IMM, R141). -/
  | ldaImm (imm : Byte)
  /-- `$AB` *LXA #imm (IMM, R267). -/
  | lxa (imm : Byte)
  /-- `$AC` LDY addr (ABS, R143). -/
  | ldyAbs (addr : Word)
  /-- `$AD` LDA addr (ABS, R141). -/
  | ldaAbs (addr : Word)
  /-- `$AE` LDX addr (ABS, R142). -/
  | ldxAbs (addr : Word)
  /-- `$AF` *LAX addr (ABS, R267). -/
  | laxAbs (addr : Word)
  /-- `$B0` BCS off (REL, R212). -/
  | bcs (off : Byte)
  /-- `$B1` LDA (z),Y (IZY, R141). -/
  | ldaIzy (z : Byte)
  /-- `$B3` *LAX (z),Y (IZY, R267). -/
  | laxIzy (z : Byte)
  /-- `$B4` LDY z,X (ZPX, R143). -/
  | ldyZpx (z : Byte)
  /-- `$B5` LDA z,X (ZPX, R141). -/
  | ldaZpx (z : Byte)
  /-- `$B6` LDX z,Y (ZPY, R142). -/
  | ldxZpy (z : Byte)
  /-- `$B7` *LAX z,Y (ZPY, R267). -/
  | laxZpy (z : Byte)
  /-- `$B9` LDA base,Y (ABY, R141). -/
  | ldaAby (base : Word)
  /-- `$BB` *LAS base,Y (ABY, R267). -/
  | las (base : Word)
  /-- `$BC` LDY base,X (ABX, R143). -/
  | ldyAbx (base : Word)
  /-- `$BD` LDA base,X (ABX, R141). -/
  | ldaAbx (base : Word)
  /-- `$BE` LDX base,Y (ABY, R142). -/
  | ldxAby (base : Word)
  /-- `$BF` *LAX base,Y (ABY, R267). -/
  | laxAby (base : Word)
  /-- `$C0` CPY #imm (IMM, R203). -/
  | cpyImm (imm : Byte)
  /-- `$C1` CMP (z,X) (IZX, R201). -/
  | cmpIzx (z : Byte)
  /-- `$C2` *NOP #imm (IMM, R267). -/
  | unopC2 (imm : Byte)
  /-- `$C3` *DCP (z,X) (IZX, R267). -/
  | dcpIzx (z : Byte)
  /-- `$C4` CPY z (ZP0, R203). -/
  | cpyZp0 (z : Byte)
  /-- `$C5` CMP z (ZP0, R201). -/
  | cmpZp0 (z : Byte)
  /-- `$C6` DEC z (ZP0, R177). -/
  | decZp0 (z : Byte)
  /-- `$C7` *DCP z (ZP0, R267). -/
  | dcpZp0 (z : Byte)
  /-- `$C9` CMP #imm (IMM, R201). -/
  | cmpImm (imm : Byte)
  /-- `$CB` *SBX #imm (IMM, R267). -/
  | sbx (imm : Byte)
  /-- `$CC` CPY addr (ABS, R203). -/
  | cpyAbs (addr : Word)
  /-- `$CD` CMP addr (ABS, R201). -/
  | cmpAbs (addr : Word)
  /-- `$CE` DEC addr (ABS, R177). -/
  | decAbs (addr : Word)
  /-- `$CF` *DCP addr (ABS, R267). -/
  | dcpAbs (addr : Word)
  /-- `$D0` BNE off (REL, R214). -/
  | bne (off : Byte)
  /-- `$D1` CMP (z),Y (IZY, R201). -/
  | cmpIzy (z : Byte)
  /-- `$D3` *DCP (z),Y (IZY, R267). -/
  | dcpIzy (z : Byte)
  /-- `$D4` *NOP z,X (ZPX, R267). -/
  | unopD4 (z : Byte)
  /-- `$D5` CMP z,X (ZPX, R201). -/
  | cmpZpx (z : Byte)
  /-- `$D6` DEC z,X (ZPX, R177). -/
  | decZpx (z : Byte)
  /-- `$D7` *DCP z,X (ZPX, R267). -/
  | dcpZpx (z : Byte)
  /-- `$D9` CMP base,Y (ABY, R201). -/
  | cmpAby (base : Word)
  /-- `$DB` *DCP base,Y (ABY, R267). -/
  | dcpAby (base : Word)
  /-- `$DC` *NOP base,X (ABX, R267). -/
  | unopDC (base : Word)
  /-- `$DD` CMP base,X (ABX, R201). -/
  | cmpAbx (base : Word)
  /-- `$DE` DEC base,X (ABX, R177). -/
  | decAbx (base : Word)
  /-- `$DF` *DCP base,X (ABX, R267). -/
  | dcpAbx (base : Word)
  /-- `$E0` CPX #imm (IMM, R202). -/
  | cpxImm (imm : Byte)
  /-- `$E1` SBC (z,X) (IZX, R172). -/
  | sbcIzx (z : Byte)
  /-- `$E2` *NOP #imm (IMM, R267). -/
  | unopE2 (imm : Byte)
  /-- `$E3` *ISC (z,X) (IZX, R267). -/
  | iscIzx (z : Byte)
  /-- `$E4` CPX z (ZP0, R202). -/
  | cpxZp0 (z : Byte)
  /-- `$E5` SBC z (ZP0, R172). -/
  | sbcZp0 (z : Byte)
  /-- `$E6` INC z (ZP0, R176). -/
  | incZp0 (z : Byte)
  /-- `$E7` *ISC z (ZP0, R267). -/
  | iscZp0 (z : Byte)
  /-- `$E9` SBC #imm (IMM, R172). -/
  | sbcImm (imm : Byte)
  /-- `$EB` *USBC #imm (IMM, R267). -/
  | usbc (imm : Byte)
  /-- `$EC` CPX addr (ABS, R202). -/
  | cpxAbs (addr : Word)
  /-- `$ED` SBC addr (ABS, R172). -/
  | sbcAbs (addr : Word)
  /-- `$EE` INC addr (ABS, R176). -/
  | incAbs (addr : Word)
  /-- `$EF` *ISC addr (ABS, R267). -/
  | iscAbs (addr : Word)
  /-- `$F0` BEQ off (REL, R213). -/
  | beq (off : Byte)
  /-- `$F1` SBC (z),Y (IZY, R172). -/
  | sbcIzy (z : Byte)
  /-- `$F3` *ISC (z),Y (IZY, R267). -/
  | iscIzy (z : Byte)
  /-- `$F4` *NOP z,X (ZPX, R267). -/
  | unopF4 (z : Byte)
  /-- `$F5` SBC z,X (ZPX, R172). -/
  | sbcZpx (z : Byte)
  /-- `$F6` INC z,X (ZPX, R176). -/
  | incZpx (z : Byte)
  /-- `$F7` *ISC z,X (ZPX, R267). -/
  | iscZpx (z : Byte)
  /-- `$F9` SBC base,Y (ABY, R172). -/
  | sbcAby (base : Word)
  /-- `$FB` *ISC base,Y (ABY, R267). -/
  | iscAby (base : Word)
  /-- `$FC` *NOP base,X (ABX, R267). -/
  | unopFC (base : Word)
  /-- `$FD` SBC base,X (ABX, R172). -/
  | sbcAbx (base : Word)
  /-- `$FE` INC base,X (ABX, R176). -/
  | incAbx (base : Word)
  /-- `$FF` *ISC base,X (ABX, R267). -/
  | iscAbx (base : Word)
  /-- `$00` BRK (IMP, R254). -/
  | brk
  /-- `$02` *JAM (IMP, R267). -/
  | jam02
  /-- `$08` PHP (IMP, R226). -/
  | php
  /-- `$0A` ASL (IMP, R182). -/
  | aslImp
  /-- `$12` *JAM (IMP, R267). -/
  | jam12
  /-- `$18` CLC (IMP, R235). -/
  | clc
  /-- `$1A` *NOP (IMP, R267). -/
  | unop1A
  /-- `$22` *JAM (IMP, R267). -/
  | jam22
  /-- `$28` PLP (IMP, R229). -/
  | plp
  /-- `$2A` ROL (IMP, R184). -/
  | rolImp
  /-- `$32` *JAM (IMP, R267). -/
  | jam32
  /-- `$38` SEC (IMP, R236). -/
  | sec
  /-- `$3A` *NOP (IMP, R267). -/
  | unop3A
  /-- `$40` RTI (IMP, R253). -/
  | rti
  /-- `$42` *JAM (IMP, R267). -/
  | jam42
  /-- `$48` PHA (IMP, R227). -/
  | pha
  /-- `$4A` LSR (IMP, R183). -/
  | lsrImp
  /-- `$52` *JAM (IMP, R267). -/
  | jam52
  /-- `$58` CLI (IMP, R237). -/
  | cli
  /-- `$5A` *NOP (IMP, R267). -/
  | unop5A
  /-- `$60` RTS (IMP, R252). -/
  | rts
  /-- `$62` *JAM (IMP, R267). -/
  | jam62
  /-- `$68` PLA (IMP, R228). -/
  | pla
  /-- `$6A` ROR (IMP, R185). -/
  | rorImp
  /-- `$72` *JAM (IMP, R267). -/
  | jam72
  /-- `$78` SEI (IMP, R238). -/
  | sei
  /-- `$7A` *NOP (IMP, R267). -/
  | unop7A
  /-- `$88` DEY (IMP, R181). -/
  | dey
  /-- `$8A` TXA (IMP, R149). -/
  | txa
  /-- `$92` *JAM (IMP, R267). -/
  | jam92
  /-- `$98` TYA (IMP, R150). -/
  | tya
  /-- `$9A` TXS (IMP, R152). -/
  | txs
  /-- `$A8` TAY (IMP, R148). -/
  | tay
  /-- `$AA` TAX (IMP, R147). -/
  | tax
  /-- `$B2` *JAM (IMP, R267). -/
  | jamB2
  /-- `$B8` CLV (IMP, R241). -/
  | clv
  /-- `$BA` TSX (IMP, R151). -/
  | tsx
  /-- `$C8` INY (IMP, R179). -/
  | iny
  /-- `$CA` DEX (IMP, R180). -/
  | dex
  /-- `$D2` *JAM (IMP, R267). -/
  | jamD2
  /-- `$D8` CLD (IMP, R239). -/
  | cld
  /-- `$DA` *NOP (IMP, R267). -/
  | unopDA
  /-- `$E8` INX (IMP, R178). -/
  | inx
  /-- `$EA` NOP (IMP, R265). -/
  | nop
  /-- `$F2` *JAM (IMP, R267). -/
  | jamF2
  /-- `$F8` SED (IMP, R240). -/
  | sed
  /-- `$FA` *NOP (IMP, R267). -/
  | unopFA
  deriving DecidableEq, Repr

end Sys2Proof
end

