-- ==== Sys2Proof/WellFormed.lean ====
section
/-! DEFINITION. Well-formedness. Every operand of an `Instr` is a bit vector of exactly the width R100 gives its field, so
the type itself admits no ill-formed instruction; what can be ill-formed is a byte string offered as one instruction. -/

namespace Sys2Proof

/-- Every operand field of an instruction holds any value of its width (R100, R101): the widths are in the types. -/
def Instr.WellFormed (_ : Instr) : Bool := true

/-- A byte string of an opcode row of mode `m` is well formed when it is the opcode and exactly the mode's operand bytes
(R100). `pad` is 1 for BRK, whose encoding has a padding byte (R254), and 0 for every other row. -/
def BytesWellFormed (m : Mode) (pad : Nat) (bytes : List Byte) : Bool :=
  bytes.length == 1 + m.operandBytes + pad

end Sys2Proof
end

