-- ==== Sys2Proof/Decode.lean ====
section
/-! DEFINITION. Decoding and encoding (30_encoding.md rules R100, R118, R121). The decoder is the opcode matrix of R118:
sixteen lists of sixteen rows, read by the opcode byte. It is total on bytes; a byte string is rejected, by name, only
when it is empty or ends inside an instruction. The encoder is written from the same matrix. -/

namespace Sys2Proof

/-- The low byte of a word (R11). -/
def lo8 (w : Word) : Byte := w.setWidth 8

/-- The high byte of a word (R11). -/
def hi8 (w : Word) : Byte := (w >>> 8).setWidth 8

/-- `hi : lo`, the word of two bytes (R11, R61). -/
def mkWord (hi lo : Byte) : Word := hi ++ lo

/-- A row of the opcode matrix: the instruction its operand bytes make (R100). -/
inductive Row
  | implied (i : Instr)
  | padded (i : Instr)
  | byte (f : Byte → Instr)
  | word (f : Word → Instr)

/-- How many bytes follow the opcode of a row; a padded row's byte is skipped, never read (R254). -/
def Row.operandBytes : Row → Nat
  | .implied _ => 0
  | .padded _ | .byte _ => 1
  | .word _ => 2

/-- Opcodes $00 to $0F (R118). -/
def matrixRow0 : List Row :=
  [.padded .brk, .byte .oraIzx, .implied .jam02, .byte .sloIzx, .byte .unop04, .byte .oraZp0, .byte .aslZp0,
   .byte .sloZp0, .implied .php, .byte .oraImm, .implied .aslImp, .byte .anc0B, .word .unop0C, .word .oraAbs,
   .word .aslAbs, .word .sloAbs]

/-- Opcodes $10 to $1F (R118). -/
def matrixRow1 : List Row :=
  [.byte .bpl, .byte .oraIzy, .implied .jam12, .byte .sloIzy, .byte .unop14, .byte .oraZpx, .byte .aslZpx,
   .byte .sloZpx, .implied .clc, .word .oraAby, .implied .unop1A, .word .sloAby, .word .unop1C, .word .oraAbx,
   .word .aslAbx, .word .sloAbx]

/-- Opcodes $20 to $2F (R118). -/
def matrixRow2 : List Row :=
  [.word .jsr, .byte .andIzx, .implied .jam22, .byte .rlaIzx, .byte .bitZp0, .byte .andZp0, .byte .rolZp0,
   .byte .rlaZp0, .implied .plp, .byte .andImm, .implied .rolImp, .byte .anc2B, .word .bitAbs, .word .andAbs,
   .word .rolAbs, .word .rlaAbs]

/-- Opcodes $30 to $3F (R118). -/
def matrixRow3 : List Row :=
  [.byte .bmi, .byte .andIzy, .implied .jam32, .byte .rlaIzy, .byte .unop34, .byte .andZpx, .byte .rolZpx,
   .byte .rlaZpx, .implied .sec, .word .andAby, .implied .unop3A, .word .rlaAby, .word .unop3C, .word .andAbx,
   .word .rolAbx, .word .rlaAbx]

/-- Opcodes $40 to $4F (R118). -/
def matrixRow4 : List Row :=
  [.implied .rti, .byte .eorIzx, .implied .jam42, .byte .sreIzx, .byte .unop44, .byte .eorZp0, .byte .lsrZp0,
   .byte .sreZp0, .implied .pha, .byte .eorImm, .implied .lsrImp, .byte .alr, .word .jmpAbs, .word .eorAbs,
   .word .lsrAbs, .word .sreAbs]

/-- Opcodes $50 to $5F (R118). -/
def matrixRow5 : List Row :=
  [.byte .bvc, .byte .eorIzy, .implied .jam52, .byte .sreIzy, .byte .unop54, .byte .eorZpx, .byte .lsrZpx,
   .byte .sreZpx, .implied .cli, .word .eorAby, .implied .unop5A, .word .sreAby, .word .unop5C, .word .eorAbx,
   .word .lsrAbx, .word .sreAbx]

/-- Opcodes $60 to $6F (R118). -/
def matrixRow6 : List Row :=
  [.implied .rts, .byte .adcIzx, .implied .jam62, .byte .rraIzx, .byte .unop64, .byte .adcZp0, .byte .rorZp0,
   .byte .rraZp0, .implied .pla, .byte .adcImm, .implied .rorImp, .byte .arr, .word .jmpInd, .word .adcAbs,
   .word .rorAbs, .word .rraAbs]

/-- Opcodes $70 to $7F (R118). -/
def matrixRow7 : List Row :=
  [.byte .bvs, .byte .adcIzy, .implied .jam72, .byte .rraIzy, .byte .unop74, .byte .adcZpx, .byte .rorZpx,
   .byte .rraZpx, .implied .sei, .word .adcAby, .implied .unop7A, .word .rraAby, .word .unop7C, .word .adcAbx,
   .word .rorAbx, .word .rraAbx]

/-- Opcodes $80 to $8F (R118). -/
def matrixRow8 : List Row :=
  [.byte .unop80, .byte .staIzx, .byte .unop82, .byte .saxIzx, .byte .styZp0, .byte .staZp0, .byte .stxZp0,
   .byte .saxZp0, .implied .dey, .byte .unop89, .implied .txa, .byte .ane, .word .styAbs, .word .staAbs,
   .word .stxAbs, .word .saxAbs]

/-- Opcodes $90 to $9F (R118). -/
def matrixRow9 : List Row :=
  [.byte .bcc, .byte .staIzy, .implied .jam92, .byte .shaIzy, .byte .styZpx, .byte .staZpx, .byte .stxZpy,
   .byte .saxZpy, .implied .tya, .word .staAby, .implied .txs, .word .tas, .word .shy, .word .staAbx, .word .shx,
   .word .shaAby]

/-- Opcodes $A0 to $AF (R118). -/
def matrixRowA : List Row :=
  [.byte .ldyImm, .byte .ldaIzx, .byte .ldxImm, .byte .laxIzx, .byte .ldyZp0, .byte .ldaZp0, .byte .ldxZp0,
   .byte .laxZp0, .implied .tay, .byte .ldaImm, .implied .tax, .byte .lxa, .word .ldyAbs, .word .ldaAbs,
   .word .ldxAbs, .word .laxAbs]

/-- Opcodes $B0 to $BF (R118). -/
def matrixRowB : List Row :=
  [.byte .bcs, .byte .ldaIzy, .implied .jamB2, .byte .laxIzy, .byte .ldyZpx, .byte .ldaZpx, .byte .ldxZpy,
   .byte .laxZpy, .implied .clv, .word .ldaAby, .implied .tsx, .word .las, .word .ldyAbx, .word .ldaAbx,
   .word .ldxAby, .word .laxAby]

/-- Opcodes $C0 to $CF (R118). -/
def matrixRowC : List Row :=
  [.byte .cpyImm, .byte .cmpIzx, .byte .unopC2, .byte .dcpIzx, .byte .cpyZp0, .byte .cmpZp0, .byte .decZp0,
   .byte .dcpZp0, .implied .iny, .byte .cmpImm, .implied .dex, .byte .sbx, .word .cpyAbs, .word .cmpAbs,
   .word .decAbs, .word .dcpAbs]

/-- Opcodes $D0 to $DF (R118). -/
def matrixRowD : List Row :=
  [.byte .bne, .byte .cmpIzy, .implied .jamD2, .byte .dcpIzy, .byte .unopD4, .byte .cmpZpx, .byte .decZpx,
   .byte .dcpZpx, .implied .cld, .word .cmpAby, .implied .unopDA, .word .dcpAby, .word .unopDC, .word .cmpAbx,
   .word .decAbx, .word .dcpAbx]

/-- Opcodes $E0 to $EF (R118). -/
def matrixRowE : List Row :=
  [.byte .cpxImm, .byte .sbcIzx, .byte .unopE2, .byte .iscIzx, .byte .cpxZp0, .byte .sbcZp0, .byte .incZp0,
   .byte .iscZp0, .implied .inx, .byte .sbcImm, .implied .nop, .byte .usbc, .word .cpxAbs, .word .sbcAbs,
   .word .incAbs, .word .iscAbs]

/-- Opcodes $F0 to $FF (R118). -/
def matrixRowF : List Row :=
  [.byte .beq, .byte .sbcIzy, .implied .jamF2, .byte .iscIzy, .byte .unopF4, .byte .sbcZpx, .byte .incZpx,
   .byte .iscZpx, .implied .sed, .word .sbcAby, .implied .unopFA, .word .iscAby, .word .unopFC, .word .sbcAbx,
   .word .incAbx, .word .iscAbx]

/-- The opcode matrix of R118 in opcode order. -/
def opcodeMatrix : List Row :=
  matrixRow0 ++ matrixRow1 ++ matrixRow2 ++ matrixRow3 ++ matrixRow4 ++ matrixRow5 ++ matrixRow6 ++ matrixRow7 ++
  matrixRow8 ++ matrixRow9 ++ matrixRowA ++ matrixRowB ++ matrixRowC ++ matrixRowD ++ matrixRowE ++ matrixRowF

/-- The matrix has a row for every opcode byte (R121). -/
theorem opcodeMatrix_length : opcodeMatrix.length = 256 := by
  simp only [opcodeMatrix, List.length_append]
  rfl

/-- The row of an opcode byte: decoding is total on bytes (R121). -/
def opcodeRow (op : Byte) : Row :=
  opcodeMatrix.get ⟨op.toNat, by rw [opcodeMatrix_length]; exact op.isLt⟩

/-- Why a byte string is not an instruction: it is empty, or it ends before the operand bytes of its opcode. -/
inductive DecodeError
  | empty
  | truncated (opcode : Byte)
  deriving DecidableEq, Repr

/-- The instruction at the front of a byte string and the bytes after it (R100, R121). -/
def decode : List Byte → Except DecodeError (Instr × List Byte)
  | [] => .error .empty
  | op :: rest =>
    match opcodeRow op, rest with
    | .implied i, rest => .ok (i, rest)
    | .padded i, _ :: rest => .ok (i, rest)
    | .byte f, b :: rest => .ok (f b, rest)
    | .word f, lo :: hi :: rest => .ok (f (mkWord hi lo), rest)
    | .padded _, [] => .error (.truncated op)
    | .byte _, [] => .error (.truncated op)
    | .word _, [] => .error (.truncated op)
    | .word _, [_] => .error (.truncated op)

/-- The bytes of a number, the least significant first: how a table word lies in memory (R61, R100). -/
def tableBytes : Nat → Nat → List Byte
  | 0, _ => []
  | n + 1, w => BitVec.ofNat 8 w :: tableBytes n (w / 256)

/-- The instruction the decoder reads from the low `nbits` bits of `w`, every later bit 0. -/
def decodeTableWord (nbits w : Nat) : Option Instr :=
  match decode (tableBytes 3 (w % 2 ^ nbits)) with
  | .ok (i, _) => some i
  | .error _ => none

/-- The bytes of an instruction (R100, R118). BRK's padding byte, which nothing reads, is written as 0 (R254). -/
def encode : Instr → List Byte
  | .brk => [0x00, 0x00]
  | .oraIzx z => [0x01, z]
  | .jam02 => [0x02]
  | .sloIzx z => [0x03, z]
  | .unop04 z => [0x04, z]
  | .oraZp0 z => [0x05, z]
  | .aslZp0 z => [0x06, z]
  | .sloZp0 z => [0x07, z]
  | .php => [0x08]
  | .oraImm imm => [0x09, imm]
  | .aslImp => [0x0A]
  | .anc0B imm => [0x0B, imm]
  | .unop0C addr => [0x0C, lo8 addr, hi8 addr]
  | .oraAbs addr => [0x0D, lo8 addr, hi8 addr]
  | .aslAbs addr => [0x0E, lo8 addr, hi8 addr]
  | .sloAbs addr => [0x0F, lo8 addr, hi8 addr]
  | .bpl off => [0x10, off]
  | .oraIzy z => [0x11, z]
  | .jam12 => [0x12]
  | .sloIzy z => [0x13, z]
  | .unop14 z => [0x14, z]
  | .oraZpx z => [0x15, z]
  | .aslZpx z => [0x16, z]
  | .sloZpx z => [0x17, z]
  | .clc => [0x18]
  | .oraAby base => [0x19, lo8 base, hi8 base]
  | .unop1A => [0x1A]
  | .sloAby base => [0x1B, lo8 base, hi8 base]
  | .unop1C base => [0x1C, lo8 base, hi8 base]
  | .oraAbx base => [0x1D, lo8 base, hi8 base]
  | .aslAbx base => [0x1E, lo8 base, hi8 base]
  | .sloAbx base => [0x1F, lo8 base, hi8 base]
  | .jsr addr => [0x20, lo8 addr, hi8 addr]
  | .andIzx z => [0x21, z]
  | .jam22 => [0x22]
  | .rlaIzx z => [0x23, z]
  | .bitZp0 z => [0x24, z]
  | .andZp0 z => [0x25, z]
  | .rolZp0 z => [0x26, z]
  | .rlaZp0 z => [0x27, z]
  | .plp => [0x28]
  | .andImm imm => [0x29, imm]
  | .rolImp => [0x2A]
  | .anc2B imm => [0x2B, imm]
  | .bitAbs addr => [0x2C, lo8 addr, hi8 addr]
  | .andAbs addr => [0x2D, lo8 addr, hi8 addr]
  | .rolAbs addr => [0x2E, lo8 addr, hi8 addr]
  | .rlaAbs addr => [0x2F, lo8 addr, hi8 addr]
  | .bmi off => [0x30, off]
  | .andIzy z => [0x31, z]
  | .jam32 => [0x32]
  | .rlaIzy z => [0x33, z]
  | .unop34 z => [0x34, z]
  | .andZpx z => [0x35, z]
  | .rolZpx z => [0x36, z]
  | .rlaZpx z => [0x37, z]
  | .sec => [0x38]
  | .andAby base => [0x39, lo8 base, hi8 base]
  | .unop3A => [0x3A]
  | .rlaAby base => [0x3B, lo8 base, hi8 base]
  | .unop3C base => [0x3C, lo8 base, hi8 base]
  | .andAbx base => [0x3D, lo8 base, hi8 base]
  | .rolAbx base => [0x3E, lo8 base, hi8 base]
  | .rlaAbx base => [0x3F, lo8 base, hi8 base]
  | .rti => [0x40]
  | .eorIzx z => [0x41, z]
  | .jam42 => [0x42]
  | .sreIzx z => [0x43, z]
  | .unop44 z => [0x44, z]
  | .eorZp0 z => [0x45, z]
  | .lsrZp0 z => [0x46, z]
  | .sreZp0 z => [0x47, z]
  | .pha => [0x48]
  | .eorImm imm => [0x49, imm]
  | .lsrImp => [0x4A]
  | .alr imm => [0x4B, imm]
  | .jmpAbs addr => [0x4C, lo8 addr, hi8 addr]
  | .eorAbs addr => [0x4D, lo8 addr, hi8 addr]
  | .lsrAbs addr => [0x4E, lo8 addr, hi8 addr]
  | .sreAbs addr => [0x4F, lo8 addr, hi8 addr]
  | .bvc off => [0x50, off]
  | .eorIzy z => [0x51, z]
  | .jam52 => [0x52]
  | .sreIzy z => [0x53, z]
  | .unop54 z => [0x54, z]
  | .eorZpx z => [0x55, z]
  | .lsrZpx z => [0x56, z]
  | .sreZpx z => [0x57, z]
  | .cli => [0x58]
  | .eorAby base => [0x59, lo8 base, hi8 base]
  | .unop5A => [0x5A]
  | .sreAby base => [0x5B, lo8 base, hi8 base]
  | .unop5C base => [0x5C, lo8 base, hi8 base]
  | .eorAbx base => [0x5D, lo8 base, hi8 base]
  | .lsrAbx base => [0x5E, lo8 base, hi8 base]
  | .sreAbx base => [0x5F, lo8 base, hi8 base]
  | .rts => [0x60]
  | .adcIzx z => [0x61, z]
  | .jam62 => [0x62]
  | .rraIzx z => [0x63, z]
  | .unop64 z => [0x64, z]
  | .adcZp0 z => [0x65, z]
  | .rorZp0 z => [0x66, z]
  | .rraZp0 z => [0x67, z]
  | .pla => [0x68]
  | .adcImm imm => [0x69, imm]
  | .rorImp => [0x6A]
  | .arr imm => [0x6B, imm]
  | .jmpInd ptr => [0x6C, lo8 ptr, hi8 ptr]
  | .adcAbs addr => [0x6D, lo8 addr, hi8 addr]
  | .rorAbs addr => [0x6E, lo8 addr, hi8 addr]
  | .rraAbs addr => [0x6F, lo8 addr, hi8 addr]
  | .bvs off => [0x70, off]
  | .adcIzy z => [0x71, z]
  | .jam72 => [0x72]
  | .rraIzy z => [0x73, z]
  | .unop74 z => [0x74, z]
  | .adcZpx z => [0x75, z]
  | .rorZpx z => [0x76, z]
  | .rraZpx z => [0x77, z]
  | .sei => [0x78]
  | .adcAby base => [0x79, lo8 base, hi8 base]
  | .unop7A => [0x7A]
  | .rraAby base => [0x7B, lo8 base, hi8 base]
  | .unop7C base => [0x7C, lo8 base, hi8 base]
  | .adcAbx base => [0x7D, lo8 base, hi8 base]
  | .rorAbx base => [0x7E, lo8 base, hi8 base]
  | .rraAbx base => [0x7F, lo8 base, hi8 base]
  | .unop80 imm => [0x80, imm]
  | .staIzx z => [0x81, z]
  | .unop82 imm => [0x82, imm]
  | .saxIzx z => [0x83, z]
  | .styZp0 z => [0x84, z]
  | .staZp0 z => [0x85, z]
  | .stxZp0 z => [0x86, z]
  | .saxZp0 z => [0x87, z]
  | .dey => [0x88]
  | .unop89 imm => [0x89, imm]
  | .txa => [0x8A]
  | .ane imm => [0x8B, imm]
  | .styAbs addr => [0x8C, lo8 addr, hi8 addr]
  | .staAbs addr => [0x8D, lo8 addr, hi8 addr]
  | .stxAbs addr => [0x8E, lo8 addr, hi8 addr]
  | .saxAbs addr => [0x8F, lo8 addr, hi8 addr]
  | .bcc off => [0x90, off]
  | .staIzy z => [0x91, z]
  | .jam92 => [0x92]
  | .shaIzy z => [0x93, z]
  | .styZpx z => [0x94, z]
  | .staZpx z => [0x95, z]
  | .stxZpy z => [0x96, z]
  | .saxZpy z => [0x97, z]
  | .tya => [0x98]
  | .staAby base => [0x99, lo8 base, hi8 base]
  | .txs => [0x9A]
  | .tas base => [0x9B, lo8 base, hi8 base]
  | .shy base => [0x9C, lo8 base, hi8 base]
  | .staAbx base => [0x9D, lo8 base, hi8 base]
  | .shx base => [0x9E, lo8 base, hi8 base]
  | .shaAby base => [0x9F, lo8 base, hi8 base]
  | .ldyImm imm => [0xA0, imm]
  | .ldaIzx z => [0xA1, z]
  | .ldxImm imm => [0xA2, imm]
  | .laxIzx z => [0xA3, z]
  | .ldyZp0 z => [0xA4, z]
  | .ldaZp0 z => [0xA5, z]
  | .ldxZp0 z => [0xA6, z]
  | .laxZp0 z => [0xA7, z]
  | .tay => [0xA8]
  | .ldaImm imm => [0xA9, imm]
  | .tax => [0xAA]
  | .lxa imm => [0xAB, imm]
  | .ldyAbs addr => [0xAC, lo8 addr, hi8 addr]
  | .ldaAbs addr => [0xAD, lo8 addr, hi8 addr]
  | .ldxAbs addr => [0xAE, lo8 addr, hi8 addr]
  | .laxAbs addr => [0xAF, lo8 addr, hi8 addr]
  | .bcs off => [0xB0, off]
  | .ldaIzy z => [0xB1, z]
  | .jamB2 => [0xB2]
  | .laxIzy z => [0xB3, z]
  | .ldyZpx z => [0xB4, z]
  | .ldaZpx z => [0xB5, z]
  | .ldxZpy z => [0xB6, z]
  | .laxZpy z => [0xB7, z]
  | .clv => [0xB8]
  | .ldaAby base => [0xB9, lo8 base, hi8 base]
  | .tsx => [0xBA]
  | .las base => [0xBB, lo8 base, hi8 base]
  | .ldyAbx base => [0xBC, lo8 base, hi8 base]
  | .ldaAbx base => [0xBD, lo8 base, hi8 base]
  | .ldxAby base => [0xBE, lo8 base, hi8 base]
  | .laxAby base => [0xBF, lo8 base, hi8 base]
  | .cpyImm imm => [0xC0, imm]
  | .cmpIzx z => [0xC1, z]
  | .unopC2 imm => [0xC2, imm]
  | .dcpIzx z => [0xC3, z]
  | .cpyZp0 z => [0xC4, z]
  | .cmpZp0 z => [0xC5, z]
  | .decZp0 z => [0xC6, z]
  | .dcpZp0 z => [0xC7, z]
  | .iny => [0xC8]
  | .cmpImm imm => [0xC9, imm]
  | .dex => [0xCA]
  | .sbx imm => [0xCB, imm]
  | .cpyAbs addr => [0xCC, lo8 addr, hi8 addr]
  | .cmpAbs addr => [0xCD, lo8 addr, hi8 addr]
  | .decAbs addr => [0xCE, lo8 addr, hi8 addr]
  | .dcpAbs addr => [0xCF, lo8 addr, hi8 addr]
  | .bne off => [0xD0, off]
  | .cmpIzy z => [0xD1, z]
  | .jamD2 => [0xD2]
  | .dcpIzy z => [0xD3, z]
  | .unopD4 z => [0xD4, z]
  | .cmpZpx z => [0xD5, z]
  | .decZpx z => [0xD6, z]
  | .dcpZpx z => [0xD7, z]
  | .cld => [0xD8]
  | .cmpAby base => [0xD9, lo8 base, hi8 base]
  | .unopDA => [0xDA]
  | .dcpAby base => [0xDB, lo8 base, hi8 base]
  | .unopDC base => [0xDC, lo8 base, hi8 base]
  | .cmpAbx base => [0xDD, lo8 base, hi8 base]
  | .decAbx base => [0xDE, lo8 base, hi8 base]
  | .dcpAbx base => [0xDF, lo8 base, hi8 base]
  | .cpxImm imm => [0xE0, imm]
  | .sbcIzx z => [0xE1, z]
  | .unopE2 imm => [0xE2, imm]
  | .iscIzx z => [0xE3, z]
  | .cpxZp0 z => [0xE4, z]
  | .sbcZp0 z => [0xE5, z]
  | .incZp0 z => [0xE6, z]
  | .iscZp0 z => [0xE7, z]
  | .inx => [0xE8]
  | .sbcImm imm => [0xE9, imm]
  | .nop => [0xEA]
  | .usbc imm => [0xEB, imm]
  | .cpxAbs addr => [0xEC, lo8 addr, hi8 addr]
  | .sbcAbs addr => [0xED, lo8 addr, hi8 addr]
  | .incAbs addr => [0xEE, lo8 addr, hi8 addr]
  | .iscAbs addr => [0xEF, lo8 addr, hi8 addr]
  | .beq off => [0xF0, off]
  | .sbcIzy z => [0xF1, z]
  | .jamF2 => [0xF2]
  | .iscIzy z => [0xF3, z]
  | .unopF4 z => [0xF4, z]
  | .sbcZpx z => [0xF5, z]
  | .incZpx z => [0xF6, z]
  | .iscZpx z => [0xF7, z]
  | .sed => [0xF8]
  | .sbcAby base => [0xF9, lo8 base, hi8 base]
  | .unopFA => [0xFA]
  | .iscAby base => [0xFB, lo8 base, hi8 base]
  | .unopFC base => [0xFC, lo8 base, hi8 base]
  | .sbcAbx base => [0xFD, lo8 base, hi8 base]
  | .incAbx base => [0xFE, lo8 base, hi8 base]
  | .iscAbx base => [0xFF, lo8 base, hi8 base]

/-- The opcode byte of an instruction. -/
def Instr.opcode (i : Instr) : Byte :=
  match encode i with
  | op :: _ => op
  | [] => 0

/-- How many bytes an instruction is in memory (R100). -/
def Instr.byteLength (i : Instr) : Nat := (encode i).length

end Sys2Proof
end

