-- ==== Sys2Proof/Config.lean ====
section
/-! DEFINITION. The named parameters of 00_scope.md rule R10. Those with a closed range are fields of `Config`, a
plain-data record that `State` carries and no step changes, so that a statement about every state is a statement about
every value of every parameter (log entry 3). The OPEN functions `MIX` and `COLOR_TABLE`, and the one PPU address the
spec leaves unstated, are constants without a body (log entries 4, 5 and 11). -/

namespace Sys2Proof

/-- `UNOFFICIAL_POLICY` (R266). -/
inductive UnofficialPolicy
  | nop
  | refuse
  deriving DecidableEq, Repr

/-- `ODD_FRAME_SKIP` (R373). -/
inductive OddFrameSkip
  | never
  | oddFramesWhenRendering
  | oddFramesAlways
  deriving DecidableEq, Repr

/-- `DMA_OAM_TARGET` (R287). -/
inductive DmaOamTarget
  | viaOamaddr
  | direct
  deriving DecidableEq, Repr

/-- `SWEEP_LOW_MUTE_OPERAND` (R448). -/
inductive SweepLowMuteOperand
  | target
  | period
  deriving DecidableEq, Repr

/-- The mapper ids in scope (R493): 000 to 004. -/
inductive MapperId
  | m000
  | m001
  | m002
  | m003
  | m004
  deriving DecidableEq, Repr

/-- The parameters of R10 that are data, with the defaults R10 gives. -/
structure Config where
  /-- `PLP_I_LATENCY` (R296). -/
  plpILatency : Bool := false
  /-- `UNOFFICIAL_POLICY` (R266). -/
  unofficialPolicy : UnofficialPolicy := .nop
  /-- `WRITE_DUMMY_ALWAYS` (R113). -/
  writeDummyAlways : Bool := false
  /-- `RMW_DUMMY_WRITE` (R114). -/
  rmwDummyWrite : Bool := false
  /-- `INT_CYCLES_NMI` (R300). -/
  intCyclesNmi : Nat := 7
  /-- `INT_CYCLES_IRQ` (R300). -/
  intCyclesIrq : Nat := 7
  /-- `NMI_ON_CTRL_ENABLE` (R356). -/
  nmiOnCtrlEnable : Bool := false
  /-- `ODD_FRAME_SKIP` (R373). -/
  oddFrameSkip : OddFrameSkip := .oddFramesWhenRendering
  /-- `DMA_OAM_TARGET` (R287). -/
  dmaOamTarget : DmaOamTarget := .viaOamaddr
  /-- `SWEEP_LOW_MUTE_OPERAND` (R448). -/
  sweepLowMuteOperand : SweepLowMuteOperand := .target
  /-- `BUS_CONFLICT_MAPPERS` (R502), read only by membership. -/
  busConflictMappers : List MapperId := [.m002, .m003]
  deriving DecidableEq, Repr

/-- A colour as the host's table gives it (R395). -/
structure Rgb where
  red : Byte
  green : Byte
  blue : Byte
  deriving DecidableEq, Repr, Inhabited

/-- An audio sample. The spec gives the sample no type (R478); an integer code stands for it (log entry 4). -/
abbrev Sample := Int

/-- `MIX` (R478), OPEN: the sample of the five channel outputs pulse 1, pulse 2, triangle, noise, DMC. -/
opaque Config.mix : BitVec 4 → BitVec 4 → BitVec 4 → BitVec 4 → BitVec 7 → Sample

/-- `COLOR_TABLE` (R395), OPEN: the colour of a 6-bit index. -/
opaque Config.colorTable : BitVec 6 → Rgb

/-- `r` of a sprite pattern address (R383) where its subtraction falls below 0, for which the spec states no address: a
free value of the row (log entry 11). -/
opaque Config.freeSpriteRow : Int → PpuAddr

end Sys2Proof
end

