-- ==== Sys2Proof/Machine/State.lean ====
section
/-! DEFINITION. The machine's state as plain data: the CPU and bus state of 10_state.md, the PPU's of 61_ppu.md rule
R350, the APU's of 62_apu.md, the controller's of 60_exceptions.md rule R325 and the cartridge's of
63_cartridge_mappers.md rule R494; its reset value (70_reset_and_hazards.md rule R562); and the reasons a step can stop.
INVENTORY.md lists every field with its rule. -/

namespace Sys2Proof.Machine

/-- A sparse array: index and value pairs with strictly rising indices and no zero value; an unlisted index holds 0
(log entry 1). -/
abbrev Store (w : Nat) := List (Nat × BitVec w)

/-- An array of bytes. -/
abbrev Memory := List Host.Cell

/-- The CPU's registers (R20, R26) and hidden state (R35 to R39). -/
structure Cpu where
  a : Byte
  x : Byte
  y : Byte
  sp : Byte
  pc : Word
  p : Byte
  cycles : Nat
  nmiPending : Bool
  iWindow : Option Bool
  dmaActive : Bool
  dmaWait : Bool
  dmaPage : Byte
  dmaIndex : Byte
  dmaData : Byte
  dmcFetchPending : Bool
  dmcStall : Nat
  dmcFetchAddr : Word
  deriving DecidableEq, Repr

/-- One of the eight sprite units of the line: entry `i` of `spr_list`, `spr_lo` and `spr_hi` (R350, log entry 14). -/
structure SpriteUnit where
  y : Byte
  id : Byte
  attr : Byte
  x : Byte
  lo : Byte
  hi : Byte
  deriving DecidableEq, Repr

/-- The PPU's state (R350). Byte `i` of nametable `k` has index `1024 k + i`; pixel `(row, column)` of the framebuffer has
index `256 row + column`. -/
structure Ppu where
  ctrl : Byte
  mask : Byte
  status : Byte
  v : BitVec 15
  t : BitVec 15
  fineX : BitVec 3
  w : Bool
  readBuffer : Byte
  bgNextTileId : Byte
  bgNextAttrib : Byte
  bgNextLsb : Byte
  bgNextMsb : Byte
  bgPatLo : BitVec 16
  bgPatHi : BitVec 16
  bgAttLo : BitVec 16
  bgAttHi : BitVec 16
  palette : Memory
  nametable : Memory
  scanline : Int
  cycle : Nat
  oam : Memory
  oamaddr : Byte
  sprites : List SpriteUnit
  sprCount : Nat
  spr0Possible : Bool
  spr0Rendering : Bool
  patternRam : Memory
  frameComplete : Bool
  oddFrame : Bool
  framebuffer : Store 6
  deriving DecidableEq, Repr

/-- Envelope state (R443). -/
structure Envelope where
  start : Bool
  div : BitVec 4
  decay : BitVec 4
  deriving DecidableEq, Repr

/-- A pulse channel (R421, R422, R443, R445 to R449). -/
structure Pulse where
  duty : BitVec 2
  halt : Bool
  constVol : Bool
  vol : BitVec 4
  swEn : Bool
  swPeriod : BitVec 3
  swNeg : Bool
  swShift : BitVec 3
  swReload : Bool
  swDiv : BitVec 3
  timer : BitVec 11
  div : Nat
  seq : BitVec 3
  length : Byte
  enabled : Bool
  env : Envelope
  deriving DecidableEq, Repr

/-- The triangle channel (R450). -/
structure Triangle where
  timer : BitVec 11
  div : Nat
  seq : BitVec 5
  length : Byte
  enabled : Bool
  halt : Bool
  linReloadVal : BitVec 7
  linCount : BitVec 7
  linReload : Bool
  deriving DecidableEq, Repr

/-- The noise channel (R455). -/
structure Noise where
  halt : Bool
  constVol : Bool
  vol : BitVec 4
  mode : Bool
  periodIdx : BitVec 4
  lfsr : BitVec 15
  div : Nat
  length : Byte
  enabled : Bool
  env : Envelope
  deriving DecidableEq, Repr

/-- The DMC channel (R460). -/
structure Dmc where
  irqEn : Bool
  loop : Bool
  rateIdx : BitVec 4
  div : Nat
  level : BitVec 7
  sampleAddr : Word
  sampleLen : BitVec 12
  curAddr : Word
  bytesRemaining : BitVec 12
  buffer : Byte
  bufferEmpty : Bool
  shift : Byte
  bitsLeft : Nat
  silence : Bool
  irq : Bool
  deriving DecidableEq, Repr

/-- The five channel outputs that the last APU tick mixed (R430, log entry 4). -/
structure Mixed where
  pulse1 : BitVec 4
  pulse2 : BitVec 4
  triangle : BitVec 4
  noise : BitVec 4
  dmc : BitVec 7
  deriving DecidableEq, Repr

/-- The APU's state (R420, R424, R431, R437). -/
structure Apu where
  pulse1 : Pulse
  pulse2 : Pulse
  triangle : Triangle
  noise : Noise
  dmc : Dmc
  fsMode : Bool
  irqInhibit : Bool
  fsCount : Nat
  frameIrq : Bool
  mixed : Mixed
  deriving DecidableEq, Repr

/-- The two-pad controller latch (R325). -/
structure Controller where
  strobe : Bool
  shift0 : Byte
  shift1 : Byte
  buttons0 : Byte
  buttons1 : Byte
  deriving DecidableEq, Repr

/-- The mirroring modes (R496). -/
inductive Mirroring
  | horizontal
  | vertical
  | singleLo
  | singleHi
  deriving DecidableEq, Repr

/-- The registers of mapper 001 (R510). -/
structure Mmc1 where
  sr : BitVec 5
  srCount : Nat
  control : BitVec 5
  chr0 : BitVec 5
  chr1 : BitVec 5
  prg : BitVec 5
  ctrlLoaded : Bool
  deriving DecidableEq, Repr

/-- The registers of mapper 004 (R530); `mirroring` is the mode of the last $A000 write (R533). -/
structure Mmc3 where
  bankSelect : Byte
  banks : List Byte
  irqLatch : Byte
  irqCounter : Byte
  irqReload : Bool
  irqEnable : Bool
  irq : Bool
  mirWritten : Bool
  mirroring : Mirroring
  deriving DecidableEq, Repr

/-- The mapper of a cartridge with its registers (R505, R510, R520, R525, R530). -/
inductive Mapper
  | m000
  | m001 (regs : Mmc1)
  | m002 (bank : BitVec 4)
  | m003 (chrBank : BitVec 2)
  | m004 (regs : Mmc3)
  deriving DecidableEq, Repr

/-- The cartridge's state (R494). -/
structure Cartridge where
  prgRom : Memory
  chr : Memory
  chrIsRam : Bool
  nPrg : Nat
  nChr : Nat
  headerMirroring : Mirroring
  prgRam : Memory
  mapper : Mapper
  deriving DecidableEq, Repr

/-- The state of the whole core. `cart` is `none` when no cartridge is present (R41); `cfg` holds the parameters of R10
and no step writes it (log entry 3). -/
structure State where
  cpu : Cpu
  ram : Memory
  ppu : Ppu
  apu : Apu
  ctrl : Controller
  cart : Option Cartridge
  sysclk : Nat
  busConflicts : Nat
  cfg : Config
  deriving DecidableEq, Repr

/-- The reasons a step faults: there are none. "every address is readable and writable" (R17, R71), decoding is total
(R121) and no synchronous exception but BRK exists (R298). Safe: no claim can rest on a fault. -/
inductive Fault
  deriving DecidableEq, Repr

/-- The reasons a step is refused. -/
inductive Refusal
  /-- Raised by `exec`'s arm of an instruction that has no meaning yet. Safe: no claim is made of it. -/
  | notModelled (mnemonic : String)
  /-- Raised by an unofficial opcode's meaning under `UNOFFICIAL_POLICY = refuse`: the distinguished state
  `refused(opcode, PC_start)` of R266. Safe: the machine stops, as the parameter asks. -/
  | unofficialOpcode (opcode : Byte) (pcStart : Word)
  deriving DecidableEq, Repr

/-- The outcome of an instruction or a step. -/
abbrev Outcome := Host.Outcome State Fault Refusal

/-- The CPU after reset, its reset vector having read as `vector` (R43, R44; `dmcFetchAddr`: log entry 17). -/
def Cpu.reset (vector : Word) : Cpu where
  a := 0x00
  x := 0x00
  y := 0x00
  sp := 0xFD
  pc := vector
  p := 0x24
  cycles := 8
  nmiPending := false
  iWindow := none
  dmaActive := false
  dmaWait := true
  dmaPage := 0x00
  dmaIndex := 0x00
  dmaData := 0x00
  dmcFetchPending := false
  dmcStall := 0
  dmcFetchAddr := 0x0000

/-- An idle sprite unit (R350: "empty"). -/
def SpriteUnit.idle : SpriteUnit := ⟨0, 0, 0, 0, 0, 0⟩

/-- The PPU after reset (R350): the palette, OAM and framebuffer are kept, everything else is 0. -/
def Ppu.reset (palette oam : Memory) (framebuffer : Store 6) : Ppu where
  ctrl := 0
  mask := 0
  status := 0
  v := 0
  t := 0
  fineX := 0
  w := false
  readBuffer := 0
  bgNextTileId := 0
  bgNextAttrib := 0
  bgNextLsb := 0
  bgNextMsb := 0
  bgPatLo := 0
  bgPatHi := 0
  bgAttLo := 0
  bgAttHi := 0
  palette := palette
  nametable := []
  scanline := 0
  cycle := 0
  oam := oam
  oamaddr := 0
  sprites := [.idle, .idle, .idle, .idle, .idle, .idle, .idle, .idle]
  sprCount := 0
  spr0Possible := false
  spr0Rendering := false
  patternRam := []
  frameComplete := false
  oddFrame := false
  framebuffer := framebuffer

/-- An envelope after reset (R484). -/
def Envelope.reset : Envelope := ⟨false, 0, 0⟩

/-- A pulse channel after reset (R484). -/
def Pulse.reset : Pulse :=
  ⟨0, false, false, 0, false, 0, false, 0, false, 0, 0, 0, 0, 0, false, .reset⟩

/-- The triangle channel after reset (R484). -/
def Triangle.reset : Triangle := ⟨0, 0, 0, 0, false, false, 0, 0, false⟩

/-- The noise channel after reset: `lfsr = 1` (R484). -/
def Noise.reset : Noise := ⟨false, false, 0, false, 0, 1, 0, 0, false, .reset⟩

/-- The DMC channel after reset (R484). -/
def Dmc.reset : Dmc where
  irqEn := false
  loop := false
  rateIdx := 0
  div := 0
  level := 0
  sampleAddr := 0xC000
  sampleLen := 1
  curAddr := 0xC000
  bytesRemaining := 0
  buffer := 0
  bufferEmpty := true
  shift := 0
  bitsLeft := 8
  silence := true
  irq := false

/-- The APU after reset; the mixed outputs are those of `MIX(0, 0, 15, 0, 0)` (R484). -/
def Apu.reset : Apu where
  pulse1 := .reset
  pulse2 := .reset
  triangle := .reset
  noise := .reset
  dmc := .reset
  fsMode := false
  irqInhibit := false
  fsCount := 0
  frameIrq := false
  mixed := ⟨0, 0, 15, 0, 0⟩

/-- The controller after reset keeps only the host's buttons (R325). -/
def Controller.reset (buttons0 buttons1 : Byte) : Controller := ⟨false, 0, 0, buttons0, buttons1⟩

/-- The machine right after reset: power-on with no cartridge inserted (R561, R565), default parameters (R10), memory with
nothing listed (log entries 1 and 2). With no cartridge the reset vector reads as $0000 (R75). -/
def State.reset : State where
  cpu := .reset 0x0000
  ram := []
  ppu := .reset [] [] []
  apu := .reset
  ctrl := .reset 0 0
  cart := none
  sysclk := 0
  busConflicts := 0
  cfg := {}

end Sys2Proof.Machine
end

