-- ==== Sys2Proof/Machine/Memory.lean ====
section
/-! DEFINITION. The sparse arrays that hold every memory of the core, and the bit-field helpers of 00_scope.md rule R11.
An array is kept in one canonical form: strictly rising indices, no zero value. -/

namespace Sys2Proof.Machine

/-- The value at an index; an unlisted index holds 0 (log entry 1). -/
def Store.read {w : Nat} : Store w → Nat → BitVec w
  | [], _ => 0
  | (k, v) :: m, a => if k = a then v else Store.read m a

/-- Remove whatever an index holds. -/
def Store.erase {w : Nat} (m : Store w) (a : Nat) : Store w := m.filter (fun c => c.1 != a)

/-- Put an entry at its place in the rising order. -/
def Store.insert {w : Nat} : Store w → Nat → BitVec w → Store w
  | [], a, v => [(a, v)]
  | c :: m, a, v => if a < c.1 then (a, v) :: c :: m else c :: Store.insert m a v

/-- Write a value at an index; writing 0 removes the entry. -/
def Store.write {w : Nat} (m : Store w) (a : Nat) (v : BitVec w) : Store w :=
  if v = 0 then Store.erase m a else Store.insert (Store.erase m a) a v

/-- The array that holds a list of values from index `k` on. -/
def Store.ofListFrom {w : Nat} : Nat → List (BitVec w) → Store w
  | _, [] => []
  | k, v :: vs => if v = 0 then Store.ofListFrom (k + 1) vs else (k, v) :: Store.ofListFrom (k + 1) vs

/-- The canonical form of an array. -/
abbrev Store.wf {w : Nat} (m : Store w) : Prop :=
  m.Pairwise (fun c d => c.1 < d.1) ∧ ∀ c ∈ m, c.2 ≠ 0

/-- The canonical form of a byte array. -/
abbrev Memory.wf (m : Memory) : Prop := Store.wf m

/-- Every listed index is below `n`. -/
abbrev Store.within {w : Nat} (n : Nat) (m : Store w) : Prop := ∀ c ∈ m, c.1 < n

/-- `v[i]` (R11). -/
def bit {w : Nat} (v : BitVec w) (i : Nat) : Bool := v.getLsbD i

/-- `v[i] <- b`. -/
def setBit {w : Nat} (v : BitVec w) (i : Nat) (b : Bool) : BitVec w :=
  if b then v ||| (1#w <<< i) else v &&& ~~~(1#w <<< i)

/-- `v[lo+len-1 : lo]` (R11). -/
def field {w : Nat} (v : BitVec w) (lo len : Nat) : BitVec len := v.extractLsb' lo len

/-- `v[lo+len-1 : lo] <- x`. -/
def putField {w len : Nat} (v : BitVec w) (lo : Nat) (x : BitVec len) : BitVec w :=
  (v &&& ~~~((BitVec.allOnes len).setWidth w <<< lo)) ||| (x.setWidth w <<< lo)

/-- `zext_16` of a byte (R11). -/
def zext16 (b : Byte) : Word := b.setWidth 16

/-- `sext_16` of a byte (R11). -/
def sext16 (b : Byte) : Word := b.signExtend 16

/-- The bit of a Boolean as a bit vector. -/
def ofBit (w : Nat) (b : Bool) : BitVec w := if b then 1 else 0

/-- The bit order of a byte reversed (R384). -/
def reverse8 (b : Byte) : Byte := b.reverse

end Sys2Proof.Machine
end

