-- ==== Sys2Proof/Machine/Apu.lean ====
section
/-! DEFINITION. The APU (62_apu.md): its registers (R421 to R425), the frame sequencer (R431 to R437), the shared units
(R441 to R448), the five channels (R449 to R471) and its tick (R430). -/

namespace Sys2Proof.Machine

/-! ## Tables -/

/-- `LEN[0..31]` (R425). -/
def lengthTable : List Byte :=
  [10, 254, 20, 2, 40, 4, 80, 6, 160, 8, 60, 10, 14, 12, 26, 14] ++
  [12, 16, 24, 18, 48, 20, 96, 22, 192, 24, 72, 26, 16, 28, 32, 30]

/-- `LEN[i]`. -/
def lengthOf (i : BitVec 5) : Byte := lengthTable.getD i.toNat 0

/-- `DUTY[D][seq]` (R449). -/
def dutyTable : List (List Bool) :=
  [[false, true, false, false, false, false, false, false],
   [false, true, true, false, false, false, false, false],
   [false, true, true, true, true, false, false, false],
   [true, false, false, true, true, true, true, true]]

/-- The duty bit of a pulse channel. -/
def dutyBit (duty : BitVec 2) (seq : BitVec 3) : Bool := (dutyTable.getD duty.toNat []).getD seq.toNat false

/-- `TRI[seq]` (R453): 15 down to 0, then 0 up to 15. -/
def triangleOf (seq : BitVec 5) : BitVec 4 :=
  if seq < 16 then 15 - seq.setWidth 4 else seq.setWidth 4

/-- `NOISE_PERIOD[0..15]` (R456). -/
def noisePeriods : List Nat := [4, 8, 16, 32, 64, 96, 128, 160, 202, 254, 380, 508, 762, 1016, 2034, 4068]

/-- `DMC_RATE[0..15]` (R461). -/
def dmcRates : List Nat := [428, 380, 340, 320, 286, 254, 226, 214, 190, 160, 142, 128, 106, 84, 72, 54]

/-! ## Envelope and length counter -/

/-- `EnvelopeClock()` (R443). -/
def Envelope.clock (e : Envelope) (halt : Bool) (vol : BitVec 4) : Envelope :=
  if e.start then ⟨false, vol, 15⟩
  else if e.div = 0 then
    { e with div := vol, decay := if e.decay > 0 then e.decay - 1 else if halt then 15 else 0 }
  else { e with div := e.div - 1 }

/-- `Volume()` (R443). -/
def Envelope.volume (e : Envelope) (constVol : Bool) (vol : BitVec 4) : BitVec 4 := if constVol then vol else e.decay

/-- `LengthClock()` (R445). -/
def lengthClock (halt : Bool) (length : Byte) : Byte := if length > 0 ∧ !halt then length - 1 else length

/-- Enabling or disabling by $4015 (R423): disabling forces the length to 0. -/
def lengthEnabled (on : Bool) (length : Byte) : Byte := if on then length else 0

/-- The length loaded by a fourth-register write (R421): only while the channel is enabled. -/
def lengthLoaded (enabled : Bool) (length d : Byte) : Byte := if enabled then lengthOf (field d 3 5) else length

/-! ## Pulse channels -/

/-- `Target()` (R447): `onesComplement` for pulse 1, two's complement for pulse 2; a negated target below 0 is 0. -/
def Pulse.target (onesComplement : Bool) (p : Pulse) : Nat :=
  let t := p.timer.toNat
  let c := (p.timer >>> p.swShift.toNat).toNat
  if !p.swNeg then t + c
  else if onesComplement then t - c - 1
  else t - c

/-- `SweepMute()` (R448). -/
def Pulse.sweepMute (cfg : Config) (onesComplement : Bool) (p : Pulse) : Bool :=
  let target := p.target onesComplement
  let low := match cfg.sweepLowMuteOperand with
    | .target => target
    | .period => p.timer.toNat
  (!p.swNeg && decide (target > 0x7FF)) || decide (low < 8)

/-- `SweepClock()` (R446). -/
def Pulse.sweepClock (cfg : Config) (onesComplement : Bool) (p : Pulse) : Pulse :=
  let timer :=
    if p.swDiv = 0 ∧ p.swEn ∧ p.swShift ≠ 0 ∧ !p.sweepMute cfg onesComplement then
      BitVec.ofNat 11 (p.target onesComplement)
    else p.timer
  if p.swDiv = 0 ∨ p.swReload then { p with timer := timer, swDiv := p.swPeriod, swReload := false }
  else { p with timer := timer, swDiv := p.swDiv - 1 }

/-- The pulse's part of a quarter frame (R434). -/
def Pulse.quarter (p : Pulse) : Pulse := { p with env := p.env.clock p.halt p.vol }

/-- The pulse's part of a half frame (R435). -/
def Pulse.half (cfg : Config) (onesComplement : Bool) (p : Pulse) : Pulse :=
  { p with length := lengthClock p.halt p.length }.sweepClock cfg onesComplement

/-- `TimerTick()` of a pulse (R441, R449): period `2 × (timer + 1)`. -/
def Pulse.timerTick (p : Pulse) : Pulse :=
  if p.div = 0 then { p with div := 2 * (p.timer.toNat + 1) - 1, seq := p.seq + 1 } else { p with div := p.div - 1 }

/-- The output of a pulse (R449). -/
def Pulse.out (cfg : Config) (onesComplement : Bool) (p : Pulse) : BitVec 4 :=
  if p.length = 0 ∨ p.sweepMute cfg onesComplement ∨ !dutyBit p.duty p.seq then 0
  else p.env.volume p.constVol p.vol

/-- A write to one of a pulse's four registers (R421). -/
def Pulse.writeReg (p : Pulse) (reg : BitVec 2) (d : Byte) : Pulse :=
  if reg = 0 then { p with duty := field d 6 2, halt := bit d 5, constVol := bit d 4, vol := field d 0 4 }
  else if reg = 1 then
    { p with swEn := bit d 7, swPeriod := field d 4 3, swNeg := bit d 3, swShift := field d 0 3, swReload := true }
  else if reg = 2 then { p with timer := putField p.timer 0 d }
  else
    { p with
      timer := putField p.timer 8 (field d 0 3 : BitVec 3)
      length := lengthLoaded p.enabled p.length d
      seq := 0
      env := { p.env with start := true } }

/-- The pulse's part of a $4015 write (R423). -/
def Pulse.enable (p : Pulse) (on : Bool) : Pulse := { p with enabled := on, length := lengthEnabled on p.length }

/-! ## Triangle channel -/

/-- `LinearClock()` (R452). -/
def Triangle.quarter (t : Triangle) : Triangle :=
  let count := if t.linReload then t.linReloadVal else if t.linCount > 0 then t.linCount - 1 else t.linCount
  { t with linCount := count, linReload := t.linReload && t.halt }

/-- The triangle's part of a half frame (R435). -/
def Triangle.half (t : Triangle) : Triangle := { t with length := lengthClock t.halt t.length }

/-- `TimerTick()` of the triangle (R441, R451): period `timer + 1`. -/
def Triangle.timerTick (t : Triangle) : Triangle :=
  if t.div = 0 then
    { t with
      div := t.timer.toNat + 1 - 1
      seq := if t.linCount > 0 ∧ t.length > 0 then t.seq + 1 else t.seq }
  else { t with div := t.div - 1 }

/-- A write to one of the triangle's registers $4008–$400B (R421); $4009 has no effect. -/
def Triangle.writeReg (t : Triangle) (reg : BitVec 2) (d : Byte) : Triangle :=
  if reg = 0 then { t with halt := bit d 7, linReloadVal := field d 0 7 }
  else if reg = 1 then t
  else if reg = 2 then { t with timer := putField t.timer 0 d }
  else
    { t with
      timer := putField t.timer 8 (field d 0 3 : BitVec 3)
      length := lengthLoaded t.enabled t.length d
      linReload := true }

/-- The triangle's part of a $4015 write (R423). -/
def Triangle.enable (t : Triangle) (on : Bool) : Triangle :=
  { t with enabled := on, length := lengthEnabled on t.length }

/-! ## Noise channel -/

/-- One step of the LFSR (R457). -/
def lfsrStep (mode : Bool) (lfsr : BitVec 15) : BitVec 15 :=
  let fb := bit lfsr 0 ^^ (if mode then bit lfsr 6 else bit lfsr 1)
  (lfsr >>> 1) ||| (ofBit 15 fb <<< 14)

/-- The noise channel's part of a quarter frame (R434). -/
def Noise.quarter (n : Noise) : Noise := { n with env := n.env.clock n.halt n.vol }

/-- The noise channel's part of a half frame (R435). -/
def Noise.half (n : Noise) : Noise := { n with length := lengthClock n.halt n.length }

/-- `TimerTick()` of the noise channel (R441, R456, R457). -/
def Noise.timerTick (n : Noise) : Noise :=
  if n.div = 0 then
    { n with div := noisePeriods.getD n.periodIdx.toNat 1 - 1, lfsr := lfsrStep n.mode n.lfsr }
  else { n with div := n.div - 1 }

/-- The output of the noise channel (R458). -/
def Noise.out (n : Noise) : BitVec 4 :=
  if bit n.lfsr 0 ∨ n.length = 0 then 0 else n.env.volume n.constVol n.vol

/-- A write to one of the noise channel's registers $400C–$400F (R421); $400D has no effect. -/
def Noise.writeReg (n : Noise) (reg : BitVec 2) (d : Byte) : Noise :=
  if reg = 0 then { n with halt := bit d 5, constVol := bit d 4, vol := field d 0 4 }
  else if reg = 1 then n
  else if reg = 2 then { n with mode := bit d 7, periodIdx := field d 0 4 }
  else { n with length := lengthLoaded n.enabled n.length d, env := { n.env with start := true } }

/-- The noise channel's part of a $4015 write (R423). -/
def Noise.enable (n : Noise) (on : Bool) : Noise := { n with enabled := on, length := lengthEnabled on n.length }

/-! ## DMC channel -/

/-- `DmcRestart()` (R466). -/
def Dmc.restart (d : Dmc) : Dmc := { d with curAddr := d.sampleAddr, bytesRemaining := d.sampleLen }

/-- `DmcFill(v)` (R465). -/
def Dmc.fill (d : Dmc) (v : Byte) : Dmc :=
  let d :=
    { d with
      buffer := v
      bufferEmpty := false
      curAddr := if d.curAddr = 0xFFFF then 0x8000 else d.curAddr + 1
      bytesRemaining := d.bytesRemaining - 1 }
  if d.bytesRemaining = 0 then
    if d.loop then d.restart else if d.irqEn then { d with irq := true } else d
  else d

/-- The ±2 step of the level (R462). -/
def Dmc.stepLevel (d : Dmc) : BitVec 7 :=
  if d.silence then d.level
  else if bit d.shift 0 then if d.level ≤ 125 then d.level + 2 else d.level
  else if d.level ≥ 2 then d.level - 2 else d.level

/-- The output unit's `ClockSequencer()` (R462). -/
def Dmc.clockOutput (d : Dmc) : Dmc :=
  let d := { d with level := d.stepLevel, shift := d.shift >>> 1, bitsLeft := d.bitsLeft - 1 }
  if d.bitsLeft = 0 then
    if d.bufferEmpty then { d with bitsLeft := 8, silence := true }
    else { d with bitsLeft := 8, silence := false, shift := d.buffer, bufferEmpty := true }
  else d

/-- `TimerTick()` of the DMC (R441, R461). -/
def Dmc.timerTick (d : Dmc) : Dmc :=
  if d.div = 0 then { d with div := dmcRates.getD d.rateIdx.toNat 1 - 1 }.clockOutput
  else { d with div := d.div - 1 }

/-- A write to one of the DMC's registers $4010–$4013 (R421). -/
def Dmc.writeReg (c : Dmc) (reg : BitVec 2) (d : Byte) : Dmc :=
  if reg = 0 then
    { c with irqEn := bit d 7, loop := bit d 6, rateIdx := field d 0 4, irq := c.irq && bit d 7 }
  else if reg = 1 then { c with level := field d 0 7 }
  else if reg = 2 then { c with sampleAddr := 0xC000 + (d.setWidth 16 <<< 6) }
  else { c with sampleLen := (d.setWidth 12 <<< 4) + 1 }

/-- The DMC's part of a $4015 write (R423). -/
def Dmc.enable (c : Dmc) (on : Bool) : Dmc :=
  let c := if !on then { c with bytesRemaining := 0 } else if c.bytesRemaining = 0 then c.restart else c
  { c with irq := false }

/-! ## The frame sequencer and the registers -/

/-- One quarter frame (R434). -/
def Apu.quarterFrame (u : Apu) : Apu :=
  { u with
    pulse1 := u.pulse1.quarter, pulse2 := u.pulse2.quarter
    triangle := u.triangle.quarter, noise := u.noise.quarter }

/-- One half frame (R435). -/
def Apu.halfFrame (cfg : Config) (u : Apu) : Apu :=
  { u with
    pulse1 := u.pulse1.half cfg true, pulse2 := u.pulse2.half cfg false
    triangle := u.triangle.half, noise := u.noise.half }

/-- An IRQ event of the frame sequencer (R437). -/
def Apu.frameIrqEvent (u : Apu) : Apu := if u.irqInhibit then u else { u with frameIrq := true }

/-- The event set of a frame-sequencer trigger point (R431, R432). -/
structure FrameEvents where
  quarter : Bool
  half : Bool
  irq : Bool
  deriving DecidableEq, Repr

/-- The trigger points of R431: `false` is 4-step, `true` 5-step. -/
def frameEvents (fsMode : Bool) (n : Nat) : FrameEvents :=
  if n = 7457 ∨ n = 22371 then ⟨true, false, false⟩
  else if n = 14913 then ⟨true, true, false⟩
  else if !fsMode ∧ (n = 29828 ∨ n = 29830) then ⟨false, false, true⟩
  else if !fsMode ∧ n = 29829 then ⟨true, true, true⟩
  else if fsMode ∧ n = 37281 then ⟨true, true, false⟩
  else ⟨false, false, false⟩

/-- The last tick of a sequence (R431). -/
def frameLength (fsMode : Bool) : Nat := if fsMode then 37282 else 29830

/-- Fire the events of a trigger point into every channel (R431). -/
def Apu.fire (cfg : Config) (u : Apu) (e : FrameEvents) : Apu :=
  let u := if e.quarter then u.quarterFrame else u
  let u := if e.half then u.halfFrame cfg else u
  if e.irq then u.frameIrqEvent else u

/-- `FrameSequencerTick()` (R431). -/
def Apu.frameSequencerTick (cfg : Config) (u : Apu) : Apu :=
  let n := u.fsCount + 1
  let u := u.fire cfg (frameEvents u.fsMode n)
  { u with fsCount := if n = frameLength u.fsMode then 0 else n }

/-- The five timer ticks (R430). -/
def Apu.timerTicks (u : Apu) : Apu :=
  { u with
    pulse1 := u.pulse1.timerTick, pulse2 := u.pulse2.timerTick, triangle := u.triangle.timerTick
    noise := u.noise.timerTick, dmc := u.dmc.timerTick }

/-- The five channel outputs (R449, R454, R458, R463). The triangle's is `TRI[seq]` whatever its length: where R445's "a
channel with length == 0 outputs 0" and R454's "always" clash, the model takes R454, as R484's reset sample does (DEDUCED,
log entry 22). -/
def Apu.outputs (cfg : Config) (u : Apu) : Mixed :=
  ⟨u.pulse1.out cfg true, u.pulse2.out cfg false, triangleOf u.triangle.seq, u.noise.out, u.dmc.level⟩

/-- Whether the DMC memory reader requests a fetch (R464), `pending` being `dmc_fetch_pending`. -/
def Dmc.wantsFetch (d : Dmc) (pending : Bool) : Bool := d.bufferEmpty && d.bytesRemaining != 0 && !pending

/-- `apu.clock()` on an APU tick (R430), up to the reader's request, which only the DMC and the CPU take part in. -/
def Apu.tick (cfg : Config) (u : Apu) : Apu :=
  let u := (u.frameSequencerTick cfg).timerTicks
  { u with mixed := u.outputs cfg }

/-- A CPU write to $4000–$4013 (R421): the address's low five bits choose the channel and its register. -/
def Apu.writeReg (u : Apu) (reg : BitVec 5) (d : Byte) : Apu :=
  let r : BitVec 2 := field reg 0 2
  if reg < 0x04 then { u with pulse1 := u.pulse1.writeReg r d }
  else if reg < 0x08 then { u with pulse2 := u.pulse2.writeReg r d }
  else if reg < 0x0C then { u with triangle := u.triangle.writeReg r d }
  else if reg < 0x10 then { u with noise := u.noise.writeReg r d }
  else { u with dmc := u.dmc.writeReg r d }

/-- A write to $4015 (R423). -/
def Apu.writeStatus (u : Apu) (d : Byte) : Apu :=
  { u with
    pulse1 := u.pulse1.enable (bit d 0), pulse2 := u.pulse2.enable (bit d 1)
    triangle := u.triangle.enable (bit d 2), noise := u.noise.enable (bit d 3)
    dmc := u.dmc.enable (bit d 4) }

/-- A read of $4015 (R423): its value, and the frame IRQ cleared. -/
def Apu.readStatus (u : Apu) : Byte × Apu :=
  (ofBit 8 u.dmc.irq <<< 7 ||| ofBit 8 u.frameIrq <<< 6 ||| ofBit 8 (u.dmc.bytesRemaining != 0) <<< 4 |||
      ofBit 8 (u.noise.length != 0) <<< 3 ||| ofBit 8 (u.triangle.length != 0) <<< 2 |||
      ofBit 8 (u.pulse2.length != 0) <<< 1 ||| ofBit 8 (u.pulse1.length != 0),
    { u with frameIrq := false })

/-- A write to $4017 (R424). -/
def Apu.writeFrameCounter (cfg : Config) (u : Apu) (d : Byte) : Apu :=
  let u := { u with fsMode := bit d 7, irqInhibit := bit d 6, frameIrq := u.frameIrq && !bit d 6, fsCount := 0 }
  if bit d 7 then u.quarterFrame.halfFrame cfg else u

end Sys2Proof.Machine
end

