-- ==== Sys2Proof/Machine/Pad.lean ====
section
/-! DEFINITION. The two-pad controller latch (60_exceptions.md rules R325 to R330). -/

namespace Sys2Proof.Machine

/-- A write to $4016 (R326). -/
def Controller.write (k : Controller) (v : Byte) : Controller :=
  if bit v 0 then { k with strobe := true, shift0 := k.buttons0, shift1 := k.buttons1 } else { k with strobe := false }

/-- A read of $4016, pad 0, or $4017, pad 1 (R327): the most significant bit first. -/
def Controller.read (k : Controller) (pad : Bool) : Byte × Controller :=
  if pad then
    let shift := if k.strobe then k.buttons1 else k.shift1
    (ofBit 8 (bit shift 7), { k with shift1 := shift <<< 1 })
  else
    let shift := if k.strobe then k.buttons0 else k.shift0
    (ofBit 8 (bit shift 7), { k with shift0 := shift <<< 1 })

end Sys2Proof.Machine
end

