-- ==== Sys2Proof/Machine/Cartridge.lean ====
section
/-! DEFINITION. The cartridge: the mapper interface and mappers 000 to 004 (63_cartridge_mappers.md), as functions of the
registers evaluated at each access (R495), and the parsing of an image (R490 to R493). -/

namespace Sys2Proof.Machine

/-- `mapper_id` (R490, log entry 13). -/
def Cartridge.mapperId (c : Cartridge) : MapperId :=
  match c.mapper with
  | .m000 => .m000
  | .m001 _ => .m001
  | .m002 _ => .m002
  | .m003 _ => .m003
  | .m004 _ => .m004

/-- `mapper_irq`, always 0 for mappers 000 to 003 (R494, R541). -/
def Cartridge.mapperIrq (c : Cartridge) : Bool :=
  match c.mapper with
  | .m004 r => r.irq
  | _ => false

/-- The mirroring of mapper 001's control bits 1..0 (R512). -/
def mmc1Mirroring (bits : BitVec 2) : Mirroring :=
  if bits = 0 then .singleLo else if bits = 1 then .singleHi else if bits = 2 then .vertical else .horizontal

/-- The current mirroring mode (R496, R512, R533). -/
def Cartridge.mirroring (c : Cartridge) : Mirroring :=
  match c.mapper with
  | .m001 r => if r.ctrlLoaded then mmc1Mirroring (field r.control 0 2) else c.headerMirroring
  | .m004 r => if r.mirWritten then r.mirroring else c.headerMirroring
  | _ => c.headerMirroring

/-- The number of 8 KB CHR banks; CHR RAM counts as one (R501). -/
def Cartridge.chrBanks (c : Cartridge) : Nat := if c.chrIsRam then 1 else c.nChr

/-- `R[i]` of mapper 004 (R530). -/
def Mmc3.bank (r : Mmc3) (i : Nat) : Byte := r.banks.getD i 0

/-- The 16 KB bank mapper 001 shows at an address (R513), before the modulo of R501. -/
def mmc1PrgBank (r : Mmc1) (nPrg : Nat) (upper : Bool) : Nat :=
  let prg : BitVec 4 := field r.prg 0 4
  let mode : BitVec 2 := field r.control 2 2
  if mode = 3 then if upper then nPrg - 1 else prg.toNat
  else if mode = 2 then if upper then prg.toNat else 0
  else (prg &&& 0xE).toNat + upper.toNat

/-- The 8 KB bank mapper 004 shows in slot 0 ($8000) to 3 ($E000) (R532), before the modulo of R501. -/
def mmc3PrgBank (r : Mmc3) (nPrg : Nat) (slot : BitVec 2) : Nat :=
  let last := 2 * nPrg - 1
  let mode := bit r.bankSelect 6
  if slot = 0 then if mode then last - 1 else (r.bank 6).toNat
  else if slot = 1 then (r.bank 7).toNat
  else if slot = 2 then if mode then (r.bank 6).toNat else last - 1
  else last

/-- `PrgOffset(addr)` for an address in $8000–$FFFF (R505, R513, R520, R525, R532). -/
def Cartridge.prgOffset (c : Cartridge) (a : Word) : Nat :=
  match c.mapper with
  | .m000 | .m003 _ => (a &&& (if c.nPrg > 1 then 0x7FFF else 0x3FFF)).toNat
  | .m001 r => mmc1PrgBank r c.nPrg (bit a 14) % c.nPrg * 16384 + (a &&& 0x3FFF).toNat
  | .m002 bank =>
    (if bit a 14 then c.nPrg - 1 else bank.toNat % c.nPrg) * 16384 + (a &&& 0x3FFF).toNat
  | .m004 r => mmc3PrgBank r c.nPrg (field a 13 2) % (2 * c.nPrg) * 8192 + (a &&& 0x1FFF).toNat

/-- The 4 KB bank mapper 001 shows at a PPU address (R514), before the modulo of R501. -/
def mmc1ChrBank (r : Mmc1) (upper : Bool) : Nat :=
  if bit r.control 4 then if upper then r.chr1.toNat else r.chr0.toNat
  else (r.chr0 &&& 0x1E).toNat + upper.toNat

/-- The 1 KB bank mapper 004 shows in slot `a[12:10]` (R534), before the modulo of R501: CHR inversion exchanges the
two halves. -/
def mmc3ChrBank (r : Mmc3) (slot : BitVec 3) : Nat :=
  let s := if bit r.bankSelect 7 then slot ^^^ 4 else slot
  if s = 0 then (r.bank 0 &&& 0xFE).toNat
  else if s = 1 then (r.bank 0 ||| 1).toNat
  else if s = 2 then (r.bank 1 &&& 0xFE).toNat
  else if s = 3 then (r.bank 1 ||| 1).toNat
  else if s = 4 then (r.bank 2).toNat
  else if s = 5 then (r.bank 3).toNat
  else if s = 6 then (r.bank 4).toNat
  else (r.bank 5).toNat

/-- `ChrOffset(a)` for a PPU address in $0000–$1FFF (R505, R514, R520, R525, R534). -/
def Cartridge.chrOffset (c : Cartridge) (a : PpuAddr) : Nat :=
  match c.mapper with
  | .m000 | .m002 _ => a.toNat
  | .m001 r => mmc1ChrBank r (bit a 12) % (2 * c.chrBanks) * 4096 + (a &&& 0x0FFF).toNat
  | .m003 chrBank => chrBank.toNat % c.chrBanks * 8192 + a.toNat
  | .m004 r => mmc3ChrBank r (field a 10 3) % (8 * c.chrBanks) * 1024 + (a &&& 0x03FF).toNat

/-- The target of a cartridge read (R498): PRG-RAM or a PRG-ROM offset. -/
inductive CartTarget
  | ram (off : Nat)
  | rom (off : Nat)
  deriving DecidableEq, Repr

/-- `cpuMapRead` (R498): `none` when the address is not claimed. -/
def Cartridge.cpuMapRead (c : Cartridge) (a : Word) : Option CartTarget :=
  if a < 0x6000 then none
  else if a < 0x8000 then some (.ram (a - 0x6000).toNat)
  else some (.rom (c.prgOffset a))

/-- The byte a cartridge target holds (R498). -/
def Cartridge.readTarget (c : Cartridge) : CartTarget → Byte
  | .ram off => Store.read c.prgRam off
  | .rom off => Store.read c.prgRom off

/-- The cartridge's answer to a CPU read (R498). -/
def Cartridge.cpuRead (c : Cartridge) (a : Word) : Option Byte := (c.cpuMapRead a).map c.readTarget

/-- Mapper 001's serial write (R511). -/
def Mmc1.write (r : Mmc1) (a : Word) (d : Byte) : Mmc1 :=
  if bit d 7 then { r with sr := 0, srCount := 0, control := r.control ||| 0x0C }
  else
    let sr := (r.sr >>> 1) ||| (ofBit 5 (bit d 0) <<< 4)
    if r.srCount + 1 = 5 then
      let r := { r with sr := 0, srCount := 0 }
      let range : BitVec 2 := field a 13 2
      if range = 0 then { r with control := sr, ctrlLoaded := true }
      else if range = 1 then { r with chr0 := sr }
      else if range = 2 then { r with chr1 := sr }
      else { r with prg := sr }
    else { r with sr := sr, srCount := r.srCount + 1 }

/-- Mapper 004's register write (R531, R533). -/
def Mmc3.write (r : Mmc3) (a : Word) (d : Byte) : Mmc3 :=
  let range : BitVec 2 := field a 13 2
  let odd := bit a 0
  if range = 0 then
    if odd then { r with banks := r.banks.set (field r.bankSelect 0 3).toNat d } else { r with bankSelect := d }
  else if range = 1 then
    if odd then r else { r with mirWritten := true, mirroring := if bit d 0 then .horizontal else .vertical }
  else if range = 2 then
    if odd then { r with irqCounter := 0, irqReload := true } else { r with irqLatch := d }
  else if odd then { r with irqEnable := true }
  else { r with irqEnable := false, irq := false }

/-- `RegisterWrite(addr, d)` of each mapper (R505, R511, R520, R525, R531). -/
def Mapper.write (m : Mapper) (a : Word) (d : Byte) : Mapper :=
  match m with
  | .m000 => .m000
  | .m001 r => .m001 (r.write a d)
  | .m002 _ => .m002 (field d 0 4)
  | .m003 _ => .m003 (field d 0 2)
  | .m004 r => .m004 (r.write a d)

/-- Whether a write to $8000–$FFFF is a bus conflict to record: the ROM byte there differs (R502). -/
def Cartridge.busConflict (cfg : Config) (c : Cartridge) (a : Word) (d : Byte) : Bool :=
  cfg.busConflictMappers.contains c.mapperId && Store.read c.prgRom (c.prgOffset a) != d

/-- `cpuMapWrite` for a claimed address (R499): the cartridge after the write. PRG-ROM never changes. -/
def Cartridge.cpuWrite (c : Cartridge) (a : Word) (d : Byte) : Cartridge :=
  if a < 0x8000 then { c with prgRam := Store.write c.prgRam (a - 0x6000).toNat d }
  else { c with mapper := c.mapper.write a d }

/-- `ppuRead` (R500): `none` when the address is not claimed. -/
def Cartridge.ppuRead (c : Cartridge) (a : PpuAddr) : Option Byte :=
  if a < 0x2000 then some (Store.read c.chr (c.chrOffset a)) else none

/-- `ppuWrite` for a claimed address (R500): CHR-ROM is not changed. -/
def Cartridge.ppuWrite (c : Cartridge) (a : PpuAddr) (d : Byte) : Cartridge :=
  if c.chrIsRam then { c with chr := Store.write c.chr (c.chrOffset a) d } else c

/-- Mapper 004's scanline counter (R541). -/
def Mmc3.scanline (r : Mmc3) : Mmc3 :=
  let r :=
    if r.irqCounter = 0 ∨ r.irqReload then { r with irqCounter := r.irqLatch, irqReload := false }
    else { r with irqCounter := r.irqCounter - 1 }
  if r.irqCounter = 0 ∧ r.irqEnable then { r with irq := true } else r

/-- The PPU's scanline notification (R385): only mapper 004 is subscribed (R492). -/
def Cartridge.scanline (c : Cartridge) : Cartridge :=
  match c.mapper with
  | .m004 r => { c with mapper := .m004 r.scanline }
  | _ => c

/-- The registers of a mapper after reset and at insertion (R549). -/
def Mapper.reset : MapperId → Mapper
  | .m000 => .m000
  | .m001 => .m001 ⟨0, 0, 0x0C, 0, 0, 0, false⟩
  | .m002 => .m002 0
  | .m003 => .m003 0
  | .m004 => .m004 ⟨0, [0, 2, 4, 5, 6, 7, 0, 1], 0, 0, false, false, false, false, .vertical⟩

/-- Mapper reset (R549): registers and `mapper_irq`; PRG-RAM and CHR RAM keep their contents. -/
def Cartridge.reset (c : Cartridge) : Cartridge := { c with mapper := .reset c.mapperId }

/-- Why an image "cannot be loaded" (R493, cases a to e). -/
inductive LoadError
  | badMagic
  | extendedHeader
  | unknownMapper
  | noPrgBanks
  | shortStream
  deriving DecidableEq, Repr

/-- The fields of a header that the core uses (R490). -/
structure Header where
  nPrg : Nat
  nChr : Nat
  mirroring : Mirroring
  trainer : Bool
  mapper : MapperId
  deriving DecidableEq, Repr

/-- The mapper id of a number, for the ids in scope (R493 c). -/
def MapperId.ofNat? (n : Nat) : Option MapperId :=
  if n = 0 then some .m000 else if n = 1 then some .m001 else if n = 2 then some .m002
  else if n = 3 then some .m003 else if n = 4 then some .m004 else none

/-- Parse the 16-byte header (R490), rejecting by R493 in its order a to d. -/
def parseHeader : List Byte → Except LoadError Header
  | [m0, m1, m2, m3, nPrg, nChr, flags6, flags7, _, _, _, _, _, _, _, _] =>
    if [m0, m1, m2, m3] ≠ [0x4E, 0x45, 0x53, 0x1A] then .error .badMagic
    else if flags7 &&& 0x0C = 0x08 then .error .extendedHeader
    else
      match MapperId.ofNat? ((flags7 &&& 0xF0) ||| (flags6 >>> 4)).toNat with
      | none => .error .unknownMapper
      | some mapper =>
        if nPrg = 0 then .error .noPrgBanks
        else .ok ⟨nPrg.toNat, nChr.toNat, if bit flags6 0 then .vertical else .horizontal, bit flags6 2, mapper⟩
  | _ => .error .shortStream

/-- The cartridge of an image and of PRG-RAM contents `CART_RAM_INIT` (R490 to R493, R497, R549): the header, then a
skipped trainer, then PRG-ROM, then CHR-ROM or zero-filled CHR RAM; later bytes are ignored. -/
def parseImage (image cartRamInit : List Byte) : Except LoadError Cartridge :=
  match parseHeader (image.take 16) with
  | .error e => .error e
  | .ok h =>
    let body := image.drop (16 + if h.trainer then 512 else 0)
    let prgSize := h.nPrg * 16384
    let chrSize := h.nChr * 8192
    if image.length < 16 + (if h.trainer then 512 else 0) + prgSize + chrSize then .error .shortStream
    else
      .ok {
        prgRom := Store.ofListFrom 0 (body.take prgSize)
        chr := Store.ofListFrom 0 ((body.drop prgSize).take chrSize)
        chrIsRam := h.nChr == 0
        nPrg := h.nPrg
        nChr := h.nChr
        headerMirroring := h.mirroring
        prgRam := Store.ofListFrom 0 (cartRamInit.take 8192)
        mapper := .reset h.mapper }

end Sys2Proof.Machine
end

