-- ==== Sys2Proof/Machine/Ppu.lean ====
section
/-! DEFINITION. The PPU (61_ppu.md): its address space (R360 to R363), its CPU-visible registers (R354 to R366), the
scanline and cycle pipeline (R370 to R380), sprites (R381 to R385) and compositing (R390 to R394). An action of the PPU
changes the PPU, may write CHR RAM or notify the mapper, and may assert NMI; `PpuStep` says so. -/

namespace Sys2Proof.Machine

/-- What an action of the PPU gives: the PPU, the cartridge, and whether NMI was asserted (R291). -/
structure PpuStep where
  ppu : Ppu
  cart : Option Cartridge
  nmi : Bool
  deriving DecidableEq, Repr

/-! ## The PPU bus -/

/-- The mirroring mode in force; horizontal with no cartridge (R362, R565). -/
def mirroringOf (c : Option Cartridge) : Mirroring :=
  match c with
  | some c => c.mirroring
  | none => .horizontal

/-- `NtIndex(a)` (R362): which internal nametable an address selects. -/
def ntIndex (m : Mirroring) (a : PpuAddr) : Bool :=
  match m with
  | .vertical => bit a 10
  | .horizontal => bit a 11
  | .singleLo => false
  | .singleHi => true

/-- The index in the nametable array of a nametable address (R362, R360). -/
def ntOffset (m : Mirroring) (a : PpuAddr) : Nat :=
  (ntIndex m a).toNat * 1024 + (a &&& 0x03FF).toNat

/-- `PalIndex(a)` (R363). -/
def palIndex (a : PpuAddr) : Nat :=
  let i := (a &&& 0x1F).toNat
  if i = 0x10 ∨ i = 0x14 ∨ i = 0x18 ∨ i = 0x1C then i - 0x10 else i

/-- `PpuRead(a)` (R360, R363). -/
def ppuRead (c : Option Cartridge) (p : Ppu) (a : PpuAddr) : Byte :=
  match c.bind (·.ppuRead a) with
  | some b => b
  | none =>
    if a ≤ 0x1FFF then Store.read p.patternRam a.toNat
    else if a ≤ 0x3EFF then Store.read p.nametable (ntOffset (mirroringOf c) a)
    else Store.read p.palette (palIndex a) &&& (if bit p.mask 0 then 0x30 else 0x3F)

/-- `PpuWrite(a, d)` (R360): the cartridge first, else the PPU's own memories. -/
def ppuWrite (c : Option Cartridge) (p : Ppu) (a : PpuAddr) (d : Byte) : Option Cartridge × Ppu :=
  if a ≤ 0x1FFF then
    match c with
    | some c => (some (c.ppuWrite a d), p)
    | none => (none, { p with patternRam := Store.write p.patternRam a.toNat d })
  else if a ≤ 0x3EFF then
    (c, { p with nametable := Store.write p.nametable (ntOffset (mirroringOf c) a) d })
  else (c, { p with palette := Store.write p.palette (palIndex a) d })

/-! ## CPU-visible registers -/

/-- Rendering enabled: `mask[3] | mask[4]` (R357). -/
def Ppu.rendering (p : Ppu) : Bool := bit p.mask 3 || bit p.mask 4

/-- `v <- (v + (ctrl[2] ? 32 : 1)) & $7FFF` (R366). -/
def Ppu.stepV (p : Ppu) : Ppu := { p with v := p.v + (if bit p.ctrl 2 then 32 else 1) }

/-- Read of PPUSTATUS (R358). -/
def Ppu.readStatus (p : Ppu) : Byte × Ppu :=
  ((p.status &&& 0xE0) ||| (p.readBuffer &&& 0x1F), { p with status := setBit p.status 7 false, w := false })

/-- Read of PPUDATA (R366). -/
def Ppu.readData (c : Option Cartridge) (p : Ppu) : Byte × Ppu :=
  let a : PpuAddr := p.v.setWidth 14
  let b := ppuRead c p a
  (if a ≥ 0x3F00 then b else p.readBuffer, Ppu.stepV { p with readBuffer := b })

/-- A CPU read of register `reg` of $2000–$2007 (R354): write-only registers read 0. -/
def Ppu.readReg (c : Option Cartridge) (p : Ppu) (reg : BitVec 3) : Byte × Ppu :=
  if reg = 2 then p.readStatus
  else if reg = 4 then (Store.read p.oam p.oamaddr.toNat, p)
  else if reg = 7 then p.readData c
  else (0, p)

/-- Write of PPUCTRL (R355), with the NMI of `NMI_ON_CTRL_ENABLE` (R356). -/
def Ppu.writeCtrl (cfg : Config) (p : Ppu) (d : Byte) : Ppu × Bool :=
  ({ p with ctrl := d, t := putField p.t 10 (field d 0 2) },
    cfg.nmiOnCtrlEnable && !bit p.ctrl 7 && bit d 7 && bit p.status 7)

/-- Write of PPUSCROLL (R364). -/
def Ppu.writeScroll (p : Ppu) (d : Byte) : Ppu :=
  if p.w then { p with t := putField (putField p.t 12 (field d 0 3)) 5 (field d 3 5), w := false }
  else { p with fineX := field d 0 3, t := putField p.t 0 (field d 3 5), w := true }

/-- Write of PPUADDR (R365). -/
def Ppu.writeAddr (p : Ppu) (d : Byte) : Ppu :=
  if p.w then
    let t := putField p.t 0 d
    { p with t := t, v := t, w := false }
  else { p with t := setBit (putField p.t 8 (field d 0 6)) 14 false, w := true }

/-- Write of OAMDATA (R359). -/
def Ppu.writeOamData (p : Ppu) (d : Byte) : Ppu :=
  { p with oam := Store.write p.oam p.oamaddr.toNat d, oamaddr := p.oamaddr + 1 }

/-- A CPU write of register `reg` of $2000–$2007 (R354). -/
def Ppu.writeReg (cfg : Config) (c : Option Cartridge) (p : Ppu) (reg : BitVec 3) (d : Byte) : PpuStep :=
  if reg = 0 then let (p', nmi) := p.writeCtrl cfg d; ⟨p', c, nmi⟩
  else if reg = 1 then ⟨{ p with mask := d }, c, false⟩
  else if reg = 2 then ⟨p, c, false⟩
  else if reg = 3 then ⟨{ p with oamaddr := d }, c, false⟩
  else if reg = 4 then ⟨p.writeOamData d, c, false⟩
  else if reg = 5 then ⟨p.writeScroll d, c, false⟩
  else if reg = 6 then ⟨p.writeAddr d, c, false⟩
  else let (c', p') := ppuWrite c p (p.v.setWidth 14) d; ⟨p'.stepV, c', false⟩

/-- `OamDmaWrite(d)` (R287). -/
def Ppu.oamDmaWrite (target : DmaOamTarget) (p : Ppu) (index d : Byte) : Ppu :=
  match target with
  | .viaOamaddr => { p with oam := Store.write p.oam (p.oamaddr + index).toNat d }
  | .direct => { p with oam := Store.write p.oam index.toNat d }

/-! ## Background -/

/-- `IncrementX()` (R377). -/
def Ppu.incrementX (p : Ppu) : Ppu :=
  if !p.rendering then p
  else if (field p.v 0 5 : BitVec 5) = 31 then
    { p with v := setBit (putField p.v 0 (0 : BitVec 5)) 10 (!bit p.v 10) }
  else { p with v := putField p.v 0 ((field p.v 0 5 : BitVec 5) + 1) }

/-- `IncrementY()` (R377). -/
def Ppu.incrementY (p : Ppu) : Ppu :=
  let fineY : BitVec 3 := field p.v 12 3
  let coarseY : BitVec 5 := field p.v 5 5
  if !p.rendering then p
  else if fineY < 7 then { p with v := putField p.v 12 (fineY + 1) }
  else
    let v := putField p.v 12 (0 : BitVec 3)
    if coarseY = 29 then { p with v := setBit (putField v 5 (0 : BitVec 5)) 11 (!bit v 11) }
    else if coarseY = 31 then { p with v := putField v 5 (0 : BitVec 5) }
    else { p with v := putField v 5 (coarseY + 1) }

/-- `TransferX()` (R378). -/
def Ppu.transferX (p : Ppu) : Ppu :=
  if !p.rendering then p
  else { p with v := putField (setBit p.v 10 (bit p.t 10)) 0 (field p.t 0 5) }

/-- `TransferY()` (R378). -/
def Ppu.transferY (p : Ppu) : Ppu :=
  if !p.rendering then p
  else { p with v := putField (putField (setBit p.v 11 (bit p.t 11)) 5 (field p.t 5 5)) 12 (field p.t 12 3) }

/-- `LoadShifters()` (R380). -/
def Ppu.loadShifters (p : Ppu) : Ppu :=
  { p with
    bgPatLo := putField p.bgPatLo 0 p.bgNextLsb
    bgPatHi := putField p.bgPatHi 0 p.bgNextMsb
    bgAttLo := putField p.bgAttLo 0 (if bit p.bgNextAttrib 0 then 0xFF else 0x00 : Byte)
    bgAttHi := putField p.bgAttHi 0 (if bit p.bgNextAttrib 1 then 0xFF else 0x00 : Byte) }

/-- One sprite unit's part of `UpdateShifters()` (R380). -/
def SpriteUnit.shift (u : SpriteUnit) : SpriteUnit :=
  if u.x > 0 then { u with x := u.x - 1 } else { u with lo := u.lo <<< 1, hi := u.hi <<< 1 }

/-- Apply a function to the first `n` sprite units, `i < spr_count`. -/
def mapFirst (f : SpriteUnit → SpriteUnit) : Nat → List SpriteUnit → List SpriteUnit
  | n + 1, u :: us => f u :: mapFirst f n us
  | _, us => us

/-- `UpdateShifters()` (R380). -/
def Ppu.updateShifters (p : Ppu) : Ppu :=
  let p :=
    if bit p.mask 3 then
      { p with
        bgPatLo := p.bgPatLo <<< 1, bgPatHi := p.bgPatHi <<< 1
        bgAttLo := p.bgAttLo <<< 1, bgAttHi := p.bgAttHi <<< 1 }
    else p
  if bit p.mask 4 ∧ 1 ≤ p.cycle ∧ p.cycle ≤ 257 then
    { p with sprites := mapFirst SpriteUnit.shift p.sprCount p.sprites }
  else p

/-- The nametable address `$2000 | (v & $0FFF)` (R374). -/
def Ppu.nametableAddr (p : Ppu) : PpuAddr := 0x2000 ||| (p.v &&& 0x0FFF).setWidth 14

/-- The address of the attribute byte of `v` (R375). -/
def Ppu.attributeAddr (p : Ppu) : PpuAddr :=
  let coarseX : BitVec 5 := field p.v 0 5
  let coarseY : BitVec 5 := field p.v 5 5
  0x23C0 ||| (p.v &&& 0x0C00).setWidth 14 ||| ((coarseY >>> 2).setWidth 14 <<< 3) ||| (coarseX >>> 2).setWidth 14

/-- `AttributeFetch()` (R375). -/
def Ppu.attributeFetch (c : Option Cartridge) (p : Ppu) : Byte :=
  let b := ppuRead c p p.attributeAddr
  let b := if bit p.v 6 then b >>> 4 else b
  let b := if bit p.v 1 then b >>> 2 else b
  b &&& 3

/-- `PatternAddr(o)` (R376). -/
def Ppu.patternAddr (p : Ppu) (o : PpuAddr) : PpuAddr :=
  (ofBit 14 (bit p.ctrl 4) <<< 12) + (p.bgNextTileId.setWidth 14 <<< 4) + (field p.v 12 3 : BitVec 3).setWidth 14 + o

/-- `BackgroundFetch(k)` (R374). -/
def Ppu.backgroundFetch (c : Option Cartridge) (p : Ppu) (k : Nat) : Ppu :=
  match k with
  | 0 => let p := p.loadShifters; { p with bgNextTileId := ppuRead c p p.nametableAddr }
  | 2 => { p with bgNextAttrib := p.attributeFetch c }
  | 4 => { p with bgNextLsb := ppuRead c p (p.patternAddr 0) }
  | 6 => { p with bgNextMsb := ppuRead c p (p.patternAddr 8) }
  | 7 => p.incrementX
  | _ => p

/-! ## Sprites -/

/-- Sprite height `h` (R381). -/
def Ppu.spriteHeight (p : Ppu) : Nat := if bit p.ctrl 5 then 16 else 8

/-- Sprite `n`'s entry of OAM (R352). -/
def Ppu.oamSprite (p : Ppu) (n : Nat) : SpriteUnit :=
  ⟨Store.read p.oam (4 * n), Store.read p.oam (4 * n + 1), Store.read p.oam (4 * n + 2),
    Store.read p.oam (4 * n + 3), 0, 0⟩

/-- Whether sprite `n` is in range for the next scanline: `0 <= scanline - oam[4n] < h` (R381). -/
def Ppu.spriteInRange (p : Ppu) (n : Nat) : Bool :=
  let d := p.scanline - (Store.read p.oam (4 * n)).toNat
  decide (0 ≤ d ∧ d < p.spriteHeight)

/-- The sprites in range, in OAM order (R381). -/
def Ppu.spritesFound (p : Ppu) : List Nat := (List.range 64).filter p.spriteInRange

/-- `EvaluateSprites()` (R381): the first eight sprites in range; a ninth sets the sticky overflow flag. -/
def Ppu.evaluateSprites (p : Ppu) : Ppu :=
  let found := p.spritesFound
  let first := (found.take 8).map p.oamSprite
  let blank : SpriteUnit := ⟨0xFF, 0xFF, 0xFF, 0xFF, 0, 0⟩
  { p with
    sprites := first ++ List.replicate (8 - first.length) blank
    sprCount := first.length
    spr0Possible := (found.take 8).contains 0
    status := if found.length > 8 then setBit p.status 5 true else p.status }

/-- `r` of R383: the row, or `last - row` under the vertical flip, `last` being 7 or 15. R383 states no address for an `r`
below 0, which is free (log entry 11). -/
def spriteRow (flip : Bool) (last row : Int) : PpuAddr :=
  let r := if flip then last - row else row
  if 0 ≤ r then BitVec.ofNat 14 r.toNat else Config.freeSpriteRow row

/-- `SpriteAddr(id, attr, row)` (R383). -/
def Ppu.spriteAddr (p : Ppu) (u : SpriteUnit) (row : Int) : PpuAddr :=
  if bit p.ctrl 5 then
    let r := spriteRow (bit u.attr 7) 15 row
    let tile : PpuAddr := (u.id &&& 0xFE).setWidth 14 + (if r ≥ 8 then 1 else 0)
    ((u.id &&& 1).setWidth 14 <<< 12) ||| (tile <<< 4) ||| (r &&& 7)
  else (ofBit 14 (bit p.ctrl 3) <<< 12) ||| (u.id.setWidth 14 <<< 4) ||| spriteRow (bit u.attr 7) 7 row

/-- One sprite unit's part of `FetchSprites()` (R382). -/
def Ppu.fetchSprite (c : Option Cartridge) (p : Ppu) (u : SpriteUnit) : SpriteUnit :=
  let a := p.spriteAddr u (p.scanline - u.y.toNat)
  let lo := ppuRead c p a
  let hi := ppuRead c p (a + 8)
  if bit u.attr 6 then { u with lo := reverse8 lo, hi := reverse8 hi } else { u with lo := lo, hi := hi }

/-- `FetchSprites()` (R382). -/
def Ppu.fetchSprites (c : Option Cartridge) (p : Ppu) : Ppu :=
  { p with sprites := mapFirst (p.fetchSprite c) p.sprCount p.sprites }

/-! ## Compositing -/

/-- A two-bit index from a high and a low bit. -/
def twoBits (hi lo : Bool) : BitVec 2 := (ofBit 2 hi <<< 1) ||| ofBit 2 lo

/-- The background pixel and palette at a column (R390). -/
def Ppu.backgroundPixel (p : Ppu) (col : Nat) : BitVec 2 × BitVec 2 :=
  if bit p.mask 3 ∧ (bit p.mask 1 ∨ 8 ≤ col) then
    let i := 15 - p.fineX.toNat
    (twoBits (bit p.bgPatHi i) (bit p.bgPatLo i), twoBits (bit p.bgAttHi i) (bit p.bgAttLo i))
  else (0, 0)

/-- The front-most opaque sprite pixel of the first `n` units from unit `i` on (R391): its unit, pixel and attributes. -/
def firstSpritePixel : Nat → Nat → List SpriteUnit → Option (Nat × BitVec 2 × Byte)
  | n + 1, i, u :: us =>
    let px := twoBits (bit u.hi 7) (bit u.lo 7)
    if u.x = 0 ∧ px ≠ 0 then some (i, px, u.attr) else firstSpritePixel n (i + 1) us
  | _, _, _ => none

/-- The sprite pixel at a column (R391). -/
def Ppu.spritePixel (p : Ppu) (col : Nat) : Option (Nat × BitVec 2 × Byte) :=
  if bit p.mask 4 ∧ (bit p.mask 2 ∨ 8 ≤ col) then firstSpritePixel p.sprCount 0 p.sprites else none

/-- Whether a sprite-0 hit is set when both pixels are opaque (R393). -/
def Ppu.sprite0Hit (p : Ppu) : Bool :=
  p.spr0Possible && p.spr0Rendering && bit p.mask 3 && bit p.mask 4 &&
    decide ((if bit p.mask 1 && bit p.mask 2 then 1 else 9) ≤ p.cycle ∧ p.cycle ≤ 256)

/-- The pixel and palette index that win, and whether both were opaque (R392). A palette index is 0..3 for the
background and 4..7 for a sprite. -/
def choosePixel (bg : BitVec 2 × BitVec 2) (fg : Option (Nat × BitVec 2 × Byte)) : BitVec 2 × BitVec 3 × Bool :=
  match fg with
  | none => if bg.1 = 0 then (0, 0, false) else (bg.1, bg.2.setWidth 3, false)
  | some (_, px, attr) =>
    let pal : BitVec 3 := (field attr 0 2 : BitVec 2).setWidth 3 + 4
    if bg.1 = 0 then (px, pal, false)
    else if bit attr 5 then (bg.1, bg.2.setWidth 3, true)
    else (px, pal, true)

/-- Whether a sprite pixel is sprite 0's (R391). -/
def isSprite0 (fg : Option (Nat × BitVec 2 × Byte)) : Bool :=
  match fg with
  | some (i, _, _) => i == 0
  | none => false

/-- The palette address of a pixel (R394). -/
def pixelAddr (px : BitVec 2) (pal : BitVec 3) : PpuAddr := 0x3F00 + (pal.setWidth 14 <<< 2) + px.setWidth 14

/-- `ComposePixel(col, row)` (R390 to R394). -/
def Ppu.composePixel (c : Option Cartridge) (p : Ppu) (col row : Nat) : Ppu :=
  let fg := p.spritePixel col
  let spr0 := isSprite0 fg
  let chosen := choosePixel (p.backgroundPixel col) fg
  let hit := chosen.2.2 && { p with spr0Rendering := spr0 }.sprite0Hit
  let colour := ppuRead c p (pixelAddr chosen.1 chosen.2.1)
  { p with
    spr0Rendering := spr0
    status := if hit then setBit p.status 6 true else p.status
    framebuffer := Store.write p.framebuffer (256 * row + col) (field colour 0 6) }

/-! ## The tick -/

/-- Whether `ODD_FRAME_SKIP` skips in this frame (R373). -/
def Ppu.skips (cfg : Config) (p : Ppu) : Bool :=
  match cfg.oddFrameSkip with
  | .never => false
  | .oddFramesWhenRendering => p.oddFrame && p.rendering
  | .oddFramesAlways => p.oddFrame

/-- `OddFrameSkip()` (R373). -/
def Ppu.applyOddFrameSkip (cfg : Config) (p : Ppu) : Ppu :=
  if p.scanline = 0 ∧ p.cycle = 0 ∧ p.skips cfg then { p with cycle := 1 } else p

/-- Scanlines -1..239: pre-render and visible (R370). -/
def Ppu.fetching (p : Ppu) : Bool := decide (-1 ≤ p.scanline ∧ p.scanline ≤ 239)

/-- The clearing at scanline -1 cycle 1 (R370, R379). -/
def Ppu.preRenderClear (p : Ppu) : Ppu :=
  if p.scanline = -1 ∧ p.cycle = 1 then
    { p with
      status := p.status &&& 0x1F
      sprites := p.sprites.map (fun u => { u with lo := 0, hi := 0 })
      sprCount := 0 }
  else p

/-- The background part of a fetching scanline's tick (R370). -/
def Ppu.backgroundTick (c : Option Cartridge) (p : Ppu) : Ppu :=
  let n := p.cycle
  let line := p.scanline
  let p :=
    if (2 ≤ n ∧ n ≤ 257) ∨ (321 ≤ n ∧ n ≤ 337) then p.updateShifters.backgroundFetch c ((n - 1) % 8) else p
  let p := if n = 256 then p.incrementY else p
  let p := if n = 257 then p.loadShifters.transferX else p
  let p := if n = 338 ∨ n = 340 then { p with bgNextTileId := ppuRead c p p.nametableAddr } else p
  if line = -1 ∧ 280 ≤ n ∧ n ≤ 304 then p.transferY else p

/-- The sprite part of a fetching scanline's tick (R370). -/
def Ppu.spriteTick (c : Option Cartridge) (p : Ppu) : Ppu :=
  let p := if p.cycle = 257 ∧ 0 ≤ p.scanline then p.evaluateSprites else p
  if p.cycle = 340 then p.fetchSprites c else p

/-- Whether this tick sends the scanline notification (R385). -/
def Ppu.notifies (p : Ppu) : Bool := p.fetching && p.cycle == 260 && p.rendering

/-- Whether this tick is the start of vertical blank (R379). -/
def Ppu.atVblank (p : Ppu) : Bool := decide (p.scanline = 241 ∧ p.cycle = 1)

/-- The pixel of this tick, on scanlines 0..239, cycles 1..256 (R370, R394). -/
def Ppu.pixelTick (c : Option Cartridge) (p : Ppu) : Ppu :=
  if 0 ≤ p.scanline ∧ p.scanline ≤ 239 ∧ 1 ≤ p.cycle ∧ p.cycle ≤ 256 then
    p.composePixel c (p.cycle - 1) p.scanline.toNat
  else p

/-- `Advance()` (R371). -/
def Ppu.advance (p : Ppu) : Ppu :=
  if p.cycle + 1 = 341 then
    if p.scanline + 1 = 261 then
      { p with cycle := 0, scanline := -1, frameComplete := true, oddFrame := !p.oddFrame }
    else { p with cycle := 0, scanline := p.scanline + 1 }
  else { p with cycle := p.cycle + 1 }

/-- The fetches of a tick on scanlines -1..239 (R370). -/
def Ppu.fetchTick (c : Option Cartridge) (p : Ppu) : Ppu :=
  if p.fetching then ((p.preRenderClear).backgroundTick c).spriteTick c else p

/-- `ppu.clock()`: one PPU tick (R370). -/
def ppuTick (cfg : Config) (c : Option Cartridge) (p : Ppu) : PpuStep :=
  let p := (p.applyOddFrameSkip cfg).fetchTick c
  let c := if p.notifies then c.map Cartridge.scanline else c
  let vblank := p.atVblank
  let p := if vblank then { p with status := setBit p.status 7 true } else p
  ⟨(p.pixelTick c).advance, c, vblank && bit p.ctrl 7⟩

end Sys2Proof.Machine
end

