-- ==== Sys2Proof/Machine/Bus.lean ====
section
/-! DEFINITION. The CPU bus (20_memory.md): one byte an access (R62), dispatched by device priority (R69 to R75) with the
side effects of R65 and R66, and the memory cells a write can change. No access faults (R71). -/

namespace Sys2Proof.Machine

/-- `irq_line` (R37): the OR of the three source flags. -/
def State.irqLine (s : State) : Bool :=
  s.apu.frameIrq || s.apu.dmc.irq || (match s.cart with | some c => c.mapperIrq | none => false)

/-- The index in RAM of an address below $2000 (R72). -/
def ramIndex (a : Word) : Nat := (a &&& 0x07FF).toNat

/-- Put what an action of the PPU gives into the state; asserting NMI latches it (R291). -/
def State.applyPpu (s : State) (r : PpuStep) : State :=
  { s with ppu := r.ppu, cart := r.cart, cpu := { s.cpu with nmiPending := s.cpu.nmiPending || r.nmi } }

/-- `MemRead(a, 1)` below the cartridge in the priority order (R67, R70 to R75): the byte, and the state after the
device's read side effects. -/
def deviceRead (a : Word) (s : State) : Byte × State :=
  if a < 0x2000 then (Store.read s.ram (ramIndex a), s)
  else if a < 0x4000 then
    let (b, ppu) := s.ppu.readReg s.cart (field a 0 3)
    (b, { s with ppu := ppu })
  else if a = 0x4015 then
    let (b, apu) := s.apu.readStatus
    (b, { s with apu := apu })
  else if a = 0x4016 then
    let (b, ctrl) := s.ctrl.read false
    (b, { s with ctrl := ctrl })
  else if a = 0x4017 then
    let (b, ctrl) := s.ctrl.read true
    (b, { s with ctrl := ctrl })
  else (0x00, s)

/-- `MemRead(a, 1)` (R70): the cartridge is asked first (R69); an unclaimed read returns 0. -/
def busRead (a : Word) (s : State) : Byte × State :=
  match s.cart.bind (·.cpuRead a) with
  | some b => (b, s)
  | none => deviceRead a s

/-- `DummyRead(a)`: a read whose value is discarded (R12, R65). -/
def busDummyRead (a : Word) (s : State) : State := (busRead a s).2

/-- The OAM DMA trigger: a write to $4014 (R285). -/
def State.startOamDma (s : State) (page : Byte) : State :=
  { s with cpu := { s.cpu with dmaPage := page, dmaIndex := 0, dmaActive := true, dmaWait := true } }

/-- A write to the cartridge (R499), a bus conflict being counted first (R502). -/
def State.cartWrite (s : State) (c : Cartridge) (a : Word) (v : Byte) : State :=
  { s with
    cart := some (c.cpuWrite a v)
    busConflicts :=
      if 0x8000 ≤ a ∧ c.busConflict s.cfg a v then s.busConflicts + 1 else s.busConflicts }

/-- `MemWrite(a, 1, v)` below the cartridge in the priority order (R67, R71 to R75); an unclaimed write is dropped. -/
def deviceWrite (a : Word) (v : Byte) (s : State) : State :=
  if a < 0x2000 then { s with ram := Store.write s.ram (ramIndex a) v }
  else if a < 0x4000 then s.applyPpu (s.ppu.writeReg s.cfg s.cart (field a 0 3) v)
  else if a < 0x4014 then { s with apu := s.apu.writeReg (field a 0 5) v }
  else if a = 0x4014 then s.startOamDma v
  else if a = 0x4015 then { s with apu := s.apu.writeStatus v }
  else if a = 0x4016 then { s with ctrl := s.ctrl.write v }
  else if a = 0x4017 then { s with apu := s.apu.writeFrameCounter s.cfg v }
  else s

/-- `MemWrite(a, 1, v)` (R71): every mapper in scope claims the writes to $6000–$FFFF (R75). -/
def busWrite (a : Word) (v : Byte) (s : State) : State :=
  match s.cart with
  | some c => if 0x6000 ≤ a then s.cartWrite c a v else deviceWrite a v s
  | none => deviceWrite a v s

/-! ## Memory cells -/

/-- A byte of one of the core's memories (R60): what an instruction stores to. -/
inductive MemCell
  | ram (i : Nat)
  | prgRam (i : Nat)
  | prgRom (i : Nat)
  | chr (i : Nat)
  | patternRam (i : Nat)
  | nametable (i : Nat)
  | palette (i : Nat)
  | oam (i : Nat)
  deriving DecidableEq, Repr

/-- The byte a memory cell holds, without side effects; a cell of an absent cartridge reads 0. -/
def State.cell (s : State) : MemCell → Byte
  | .ram i => Store.read s.ram i
  | .prgRam i => match s.cart with | some c => Store.read c.prgRam i | none => 0
  | .prgRom i => match s.cart with | some c => Store.read c.prgRom i | none => 0
  | .chr i => match s.cart with | some c => Store.read c.chr i | none => 0
  | .patternRam i => Store.read s.ppu.patternRam i
  | .nametable i => Store.read s.ppu.nametable i
  | .palette i => Store.read s.ppu.palette i
  | .oam i => Store.read s.ppu.oam i

/-- The memory cell that a PPU-bus write reaches, if it changes one (R360, R500). -/
def ppuCell (c : Option Cartridge) (a : PpuAddr) : Option MemCell :=
  if a ≤ 0x1FFF then
    match c with
    | some c => if c.chrIsRam then some (.chr (c.chrOffset a)) else none
    | none => some (.patternRam a.toNat)
  else if a ≤ 0x3EFF then some (.nametable (ntOffset (mirroringOf c) a))
  else some (.palette (palIndex a))

/-- The one memory cell that a CPU-bus write to an address reaches in a state, if any: RAM (R72), PRG-RAM (R499), OAM
through $2004 (R359), the PPU bus through $2007 (R366). Writes elsewhere reach registers only. -/
def storedCell (a : Word) (s : State) : Option MemCell :=
  if a < 0x2000 then some (.ram (ramIndex a))
  else if a < 0x4000 then
    if (field a 0 3 : BitVec 3) = 4 then some (.oam s.ppu.oamaddr.toNat)
    else if (field a 0 3 : BitVec 3) = 7 then ppuCell s.cart (s.ppu.v.setWidth 14)
    else none
  else if 0x6000 ≤ a ∧ a < 0x8000 ∧ s.cart.isSome then some (.prgRam (a - 0x6000).toNat)
  else none

end Sys2Proof.Machine
end

