-- ==== Sys2Proof/Machine/Flags.lean ====
section
/-! DEFINITION. The status register P (10_state.md rules R26 to R34) and every flag computation of the instruction rules:
each is a function from bytes to bytes. -/

namespace Sys2Proof.Machine

/-- P.C, bit 0 (R26). -/
def flagC (p : Byte) : Bool := bit p 0
/-- P.Z, bit 1 (R26). -/
def flagZ (p : Byte) : Bool := bit p 1
/-- P.I, bit 2 (R26). -/
def flagI (p : Byte) : Bool := bit p 2
/-- P.D, bit 3 (R26). -/
def flagD (p : Byte) : Bool := bit p 3
/-- P.B, bit 4 (R26). -/
def flagB (p : Byte) : Bool := bit p 4
/-- P.U, bit 5 (R26). -/
def flagU (p : Byte) : Bool := bit p 5
/-- P.V, bit 6 (R26). -/
def flagV (p : Byte) : Bool := bit p 6
/-- P.N, bit 7 (R26). -/
def flagN (p : Byte) : Bool := bit p 7

def setC (b : Bool) (p : Byte) : Byte := setBit p 0 b
def setZ (b : Bool) (p : Byte) : Byte := setBit p 1 b
def setI (b : Bool) (p : Byte) : Byte := setBit p 2 b
def setD (b : Bool) (p : Byte) : Byte := setBit p 3 b
def setU (b : Bool) (p : Byte) : Byte := setBit p 5 b
def setV (b : Bool) (p : Byte) : Byte := setBit p 6 b
def setN (b : Bool) (p : Byte) : Byte := setBit p 7 b

/-- `SetNZ(r)` on P: N is bit 7 of the result, Z is whether it is 0 (R12, R30). -/
def setNZ (r : Byte) (p : Byte) : Byte := setN (bit r 7) (setZ (r == 0) p)

/-- `(v & $CF) | $20`: what PLP and RTI make of a pulled byte, B stored 0 and U forced to 1 (R229, R253, R27, R28). -/
def pulledP (v : Byte) : Byte := (v &&& 0xCF) ||| 0x20

/-- The copy of P that is pushed: bits 4 and 5 set by BRK and PHP (`P | $30`), bit 4 clear and bit 5 set by NMI and IRQ
entry (`(P & ~$10) | $20`) (R28, R226, R254, R301). -/
def pushedP (brk : Bool) (p : Byte) : Byte :=
  if brk then p ||| 0x30 else (p &&& ~~~0x10) ||| 0x20

/-- ADC's result and P (R170, R171). -/
def addWithCarry (a m p : Byte) : Byte × Byte :=
  let t : BitVec 9 := a.setWidth 9 + m.setWidth 9 + ofBit 9 (flagC p)
  let r : Byte := t.setWidth 8
  let v := bit (~~~(a ^^^ m) &&& (a ^^^ r)) 7
  (r, setNZ r (setV v (setC (bit t 8) p)))

/-- SBC's result and P: ADC of the one's complement (R170, R172). -/
def subWithBorrow (a m p : Byte) : Byte × Byte := addWithCarry a (m ^^^ 0xFF) p

/-- A compare's P: C is `r >= m` unsigned, N and Z those of `r - m` (R200). -/
def comparedP (r m p : Byte) : Byte := setNZ (r - m) (setC (m ≤ r) p)

/-- BIT's P: Z of `a & m`, N and V bits 7 and 6 of `m` (R186). -/
def bitTestP (a m p : Byte) : Byte := setV (bit m 6) (setN (bit m 7) (setZ ((a &&& m) == 0) p))

/-- INC's result and P (R176). -/
def incByte (m p : Byte) : Byte × Byte := (m + 1, setNZ (m + 1) p)

/-- DEC's result and P (R177). -/
def decByte (m p : Byte) : Byte × Byte := (m - 1, setNZ (m - 1) p)

/-- ASL's result and P (R182). -/
def aslByte (m p : Byte) : Byte × Byte :=
  let r := m <<< 1
  (r, setNZ r (setC (bit m 7) p))

/-- LSR's result and P (R183). -/
def lsrByte (m p : Byte) : Byte × Byte :=
  let r := m >>> 1
  (r, setNZ r (setC (bit m 0) p))

/-- ROL's result and P (R184). -/
def rolByte (m p : Byte) : Byte × Byte :=
  let r := (m <<< 1) ||| ofBit 8 (flagC p)
  (r, setNZ r (setC (bit m 7) p))

/-- ROR's result and P (R185). -/
def rorByte (m p : Byte) : Byte × Byte :=
  let r := (ofBit 8 (flagC p) <<< 7) ||| (m >>> 1)
  (r, setNZ r (setC (bit m 0) p))

end Sys2Proof.Machine
end

