-- ==== Sys2Proof/Machine/Ops.lean ====
section
/-! DEFINITION. The shared operations of the instructions: writing registers, `SetNZ`, the stack (R24, R225), the entry of
an exception (R301, R254) and the return from one (R253), and how an instruction ends (R117). -/

namespace Sys2Proof.Machine

/-! ## Registers -/

def State.setA (s : State) (v : Byte) : State := { s with cpu := { s.cpu with a := v } }
def State.setX (s : State) (v : Byte) : State := { s with cpu := { s.cpu with x := v } }
def State.setY (s : State) (v : Byte) : State := { s with cpu := { s.cpu with y := v } }
def State.setSP (s : State) (v : Byte) : State := { s with cpu := { s.cpu with sp := v } }
def State.setPC (s : State) (v : Word) : State := { s with cpu := { s.cpu with pc := v } }
def State.setP (s : State) (v : Byte) : State := { s with cpu := { s.cpu with p := v } }
def State.setCycles (s : State) (n : Nat) : State := { s with cpu := { s.cpu with cycles := n } }
def State.setIWindow (s : State) (w : Option Bool) : State := { s with cpu := { s.cpu with iWindow := w } }

/-- `SetNZ(r)` (R12). -/
def State.setNZ (s : State) (r : Byte) : State := s.setP (Machine.setNZ r s.cpu.p)

/-! ## The stack -/

/-- The address a stack pointer names (R24). -/
def stackAddr (sp : Byte) : Word := 0x0100 + zext16 sp

/-- `Push(v)` (R12, R24). -/
def push (v : Byte) (s : State) : State := (busWrite (stackAddr s.cpu.sp) v s).setSP (s.cpu.sp - 1)

/-- `Pull()` (R12, R24). -/
def pull (s : State) : Byte × State :=
  let s := s.setSP (s.cpu.sp + 1)
  busRead (stackAddr s.cpu.sp) s

/-- Push a word, its high byte first (R251, R254, R301). -/
def pushWord (w : Word) (s : State) : State := push (lo8 w) (push (hi8 w) s)

/-- Pull a word, its low byte first (R252, R253). -/
def pullWord (s : State) : Word × State :=
  let (lo, s) := pull s
  let (hi, s) := pull s
  (mkWord hi lo, s)

/-- `MemRead16(a)`: the byte at the lower address first (R12, R61). -/
def readWord (a : Word) (s : State) : Word × State :=
  let (lo, s) := busRead a s
  let (hi, s) := busRead (a + 1) s
  (mkWord hi lo, s)

/-! ## Exceptions -/

/-- The NMI vector (R298). -/
def vectorNmi : Word := 0xFFFA
/-- The reset vector (R298). -/
def vectorReset : Word := 0xFFFC
/-- The vector of IRQ and BRK (R298). -/
def vectorIrq : Word := 0xFFFE

/-- Taking an exception: `InterruptEntry(vec)` of NMI and IRQ (R301), and what BRK does after it has skipped its padding
byte (R254); `brk` chooses the pushed copy of P (R28). PC and P go to the stack, I is set, PC comes from the vector. -/
def takeException (vec : Word) (brk : Bool) (s : State) : State :=
  let s := pushWord s.cpu.pc s
  let s := push (pushedP brk s.cpu.p) s
  let s := s.setP (setI true s.cpu.p)
  let (target, s) := readWord vec s
  s.setPC target

/-- Returning from an exception, `RTI` (R253, R304): P, then PC, from the stack. -/
def returnFromException (s : State) : State :=
  let (v, s) := pull s
  let s := s.setP (pulledP v)
  let (target, s) := pullWord s
  s.setPC target

/-! ## How an instruction ends -/

/-- An instruction that completes after `n` CPU ticks (R117). -/
def finish (n : Nat) (s : State) : Outcome := .next (s.setCycles n)

/-- Apply a function to the state of an outcome that goes on. -/
def mapNext (f : State → State) : Outcome → Outcome
  | .next s => .next (f s)
  | .fault e => .fault e
  | .refused r => .refused r

end Sys2Proof.Machine
end

