-- ==== Sys2Proof/Machine/Operands.lean ====
section
/-! DEFINITION. The operand forms: the addressing modes after their operand bytes have been fetched (30_encoding.md rules
R102 to R112), and how an operation of each class uses the effective address (R115 to R117). -/

namespace Sys2Proof.Machine

/-- What an addressing mode yields (30_encoding.md section 2): the effective address, `mode_extra`, and the state after
the pointer reads and the dummy read. -/
structure Located where
  ea : Word
  crossed : Bool
  st : State
  deriving DecidableEq, Repr

/-! ## Addressing modes -/

/-- ZP0 (R104). -/
def atZp0 (z : Byte) (s : State) : Located := ⟨zext16 z, false, s⟩

/-- ZPX (R105): the index addition wraps within page zero. -/
def atZpx (z : Byte) (s : State) : Located := ⟨zext16 (z + s.cpu.x), false, s⟩

/-- ZPY (R105). -/
def atZpy (z : Byte) (s : State) : Located := ⟨zext16 (z + s.cpu.y), false, s⟩

/-- ABS (R107). -/
def atAbs (addr : Word) (s : State) : Located := ⟨addr, false, s⟩

/-- Whether the indexed modes perform the dummy read (R112, R113). -/
def dummyReads (cfg : Config) (cls : AccessClass) (crossed : Bool) : Bool :=
  match cls with
  | .readModifyWrite => true
  | .write => crossed || cfg.writeDummyAlways
  | .read | .readWrite | .branch | .special => crossed

/-- An indexed address (R108, R111): `ea`, `mode_extra` and the dummy read at `ua`, the address without the carry. -/
def indexed (cls : AccessClass) (base : Word) (index : Byte) (s : State) : Located :=
  let ea := base + zext16 index
  let ua := mkWord (hi8 base) (lo8 base + index)
  let crossed := hi8 ea != hi8 base
  ⟨ea, crossed, if dummyReads s.cfg cls crossed then busDummyRead ua s else s⟩

/-- ABX (R108). -/
def atAbx (cls : AccessClass) (base : Word) (s : State) : Located := indexed cls base s.cpu.x s

/-- ABY (R108). -/
def atAby (cls : AccessClass) (base : Word) (s : State) : Located := indexed cls base s.cpu.y s

/-- A pointer in page zero, its second byte wrapping within the page (R110, R111). -/
def zeroPagePointer (z : Byte) (s : State) : Word × State :=
  let (lo, s) := busRead (zext16 z) s
  let (hi, s) := busRead (zext16 (z + 1)) s
  (mkWord hi lo, s)

/-- IZX (R110). -/
def atIzx (z : Byte) (s : State) : Located :=
  let (ea, s) := zeroPagePointer (z + s.cpu.x) s
  ⟨ea, false, s⟩

/-- IZY (R111). -/
def atIzy (cls : AccessClass) (z : Byte) (s : State) : Located :=
  let (base, s) := zeroPagePointer z s
  indexed cls base s.cpu.y s

/-- IND (R109): the pointer's second byte is read from the pointer's own page. -/
def atInd (ptr : Word) (s : State) : Located :=
  let (lo, s) := busRead ptr s
  let (hi, s) := busRead (mkWord (hi8 ptr) (lo8 ptr + 1)) s
  ⟨mkWord hi lo, false, s⟩

/-! ## Operations by class -/

/-- An operation on an immediate byte (R103), which was read as the operand byte. -/
def onImm (n : Nat) (f : Byte → State → State) (imm : Byte) (s : State) : Outcome := finish n (f imm s)

/-- A Read-class operation (R115, R117): one more tick on a page cross. -/
def readAt (n : Nat) (f : Byte → State → State) (l : Located) : Outcome :=
  let (m, s) := busRead l.ea l.st
  finish (n + l.crossed.toNat) (f m s)

/-- A Write-class operation (R115, R140): the register is written once, no tick is added. -/
def writeAt (n : Nat) (v : State → Byte) (l : Located) : Outcome := finish n (busWrite l.ea (v l.st) l.st)

/-- A Read-Modify-Write operation (R114, R115): read, the optional write of the unmodified byte, the write of the result
and the flags. `f` gives the result and P from the byte and P. -/
def modifyAt (n : Nat) (f : Byte → Byte → Byte × Byte) (l : Located) : Outcome :=
  let (m, s) := busRead l.ea l.st
  let s := if s.cfg.rmwDummyWrite then busWrite l.ea m s else s
  let (r, p) := f m s.cpu.p
  finish n ((busWrite l.ea r s).setP p)

/-- The accumulator form of a shift or rotate (R182 to R185). -/
def modifyA (n : Nat) (f : Byte → Byte → Byte × Byte) (s : State) : Outcome :=
  let (r, p) := f s.cpu.a s.cpu.p
  finish n ((s.setA r).setP p)

/-- The common branch rule (R210): `off` is relative to the address after the branch. -/
def branchIf (taken : Bool) (off : Byte) (s : State) : Outcome :=
  let target := s.cpu.pc + sext16 off
  if taken then finish (2 + 1 + (hi8 target != hi8 s.cpu.pc).toNat) (s.setPC target) else finish 2 s

/-! ## What the operations do with their byte -/

/-- `A <- M; SetNZ(A)`. -/
def loadA (m : Byte) (s : State) : State := (s.setA m).setNZ m

/-- `X <- M; SetNZ(X)`. -/
def loadX (m : Byte) (s : State) : State := (s.setX m).setNZ m

/-- `Y <- M; SetNZ(Y)`. -/
def loadY (m : Byte) (s : State) : State := (s.setY m).setNZ m

/-- ADC and SBC on the accumulator (R171, R172). -/
def arithA (f : Byte → Byte → Byte → Byte × Byte) (m : Byte) (s : State) : State :=
  let (r, p) := f s.cpu.a m s.cpu.p
  (s.setA r).setP p

/-- AND, ORA and EOR on the accumulator (R173 to R175). -/
def logicA (f : Byte → Byte → Byte) (m : Byte) (s : State) : State := loadA (f s.cpu.a m) s

/-- A compare of a register (R200). -/
def compareWith (r : State → Byte) (m : Byte) (s : State) : State := s.setP (comparedP (r s) m s.cpu.p)

/-- BIT (R186). -/
def bitTest (m : Byte) (s : State) : State := s.setP (bitTestP s.cpu.a m s.cpu.p)

/-! ## The catch-all of the unofficial opcodes -/

/-- The unofficial handler after its addressing mode (R267), or the stop of `UNOFFICIAL_POLICY = refuse` (R266). `len` is
the row's length, so that `PC_start` is `PC - len`; `n` the row's base cycles, `cls` its class (R268). -/
def unofficial (op : Byte) (len : Word) (n : Nat) (cls : AccessClass) (mode : State → Located) (s : State) : Outcome :=
  match s.cfg.unofficialPolicy with
  | .refuse => .refused (.unofficialOpcode op (s.cpu.pc - len))
  | .nop => let l := mode s; finish (n + (l.crossed && cls == .read).toNat) l.st

/-- IMP and IMM for the catch-all: no address, no pointer and no dummy read (R102, R103). -/
def noAddress (s : State) : Located := ⟨s.cpu.pc, false, s⟩

end Sys2Proof.Machine
end

