-- ==== Sys2Proof/Machine/Alu.lean ====
section
/-! DEFINITION. Arithmetic, logic, increments, shifts and BIT (41_alu.md, R170 to R186).
One meaning for each row of the opcode table. A meaning runs on the state in which the opcode and its operand bytes have
been read and PC is past them (R25, R283); it gives the instruction its effect and its cycle count (R117, R118). -/

namespace Sys2Proof.Machine

/-- `$61` ADC (z,X) (IZX, R171). -/
def execAdcIzx (z : Byte) (s : State) : Outcome := readAt 6 (arithA addWithCarry) (atIzx z s)

/-- `$65` ADC z (ZP0, R171). -/
def execAdcZp0 (z : Byte) (s : State) : Outcome := readAt 3 (arithA addWithCarry) (atZp0 z s)

/-- `$69` ADC #imm (IMM, R171). -/
def execAdcImm (imm : Byte) (s : State) : Outcome := onImm 2 (arithA addWithCarry) imm s

/-- `$6D` ADC addr (ABS, R171). -/
def execAdcAbs (addr : Word) (s : State) : Outcome := readAt 4 (arithA addWithCarry) (atAbs addr s)

/-- `$71` ADC (z),Y (IZY, R171). -/
def execAdcIzy (z : Byte) (s : State) : Outcome := readAt 5 (arithA addWithCarry) (atIzy .read z s)

/-- `$75` ADC z,X (ZPX, R171). -/
def execAdcZpx (z : Byte) (s : State) : Outcome := readAt 4 (arithA addWithCarry) (atZpx z s)

/-- `$79` ADC base,Y (ABY, R171). -/
def execAdcAby (base : Word) (s : State) : Outcome := readAt 4 (arithA addWithCarry) (atAby .read base s)

/-- `$7D` ADC base,X (ABX, R171). -/
def execAdcAbx (base : Word) (s : State) : Outcome := readAt 4 (arithA addWithCarry) (atAbx .read base s)

/-- `$E1` SBC (z,X) (IZX, R172). -/
def execSbcIzx (z : Byte) (s : State) : Outcome := readAt 6 (arithA subWithBorrow) (atIzx z s)

/-- `$E5` SBC z (ZP0, R172). -/
def execSbcZp0 (z : Byte) (s : State) : Outcome := readAt 3 (arithA subWithBorrow) (atZp0 z s)

/-- `$E9` SBC #imm (IMM, R172). -/
def execSbcImm (imm : Byte) (s : State) : Outcome := onImm 2 (arithA subWithBorrow) imm s

/-- `$ED` SBC addr (ABS, R172). -/
def execSbcAbs (addr : Word) (s : State) : Outcome := readAt 4 (arithA subWithBorrow) (atAbs addr s)

/-- `$F1` SBC (z),Y (IZY, R172). -/
def execSbcIzy (z : Byte) (s : State) : Outcome := readAt 5 (arithA subWithBorrow) (atIzy .read z s)

/-- `$F5` SBC z,X (ZPX, R172). -/
def execSbcZpx (z : Byte) (s : State) : Outcome := readAt 4 (arithA subWithBorrow) (atZpx z s)

/-- `$F9` SBC base,Y (ABY, R172). -/
def execSbcAby (base : Word) (s : State) : Outcome := readAt 4 (arithA subWithBorrow) (atAby .read base s)

/-- `$FD` SBC base,X (ABX, R172). -/
def execSbcAbx (base : Word) (s : State) : Outcome := readAt 4 (arithA subWithBorrow) (atAbx .read base s)

/-- `$21` AND (z,X) (IZX, R173). -/
def execAndIzx (z : Byte) (s : State) : Outcome := readAt 6 (logicA (· &&& ·)) (atIzx z s)

/-- `$25` AND z (ZP0, R173). -/
def execAndZp0 (z : Byte) (s : State) : Outcome := readAt 3 (logicA (· &&& ·)) (atZp0 z s)

/-- `$29` AND #imm (IMM, R173). -/
def execAndImm (imm : Byte) (s : State) : Outcome := onImm 2 (logicA (· &&& ·)) imm s

/-- `$2D` AND addr (ABS, R173). -/
def execAndAbs (addr : Word) (s : State) : Outcome := readAt 4 (logicA (· &&& ·)) (atAbs addr s)

/-- `$31` AND (z),Y (IZY, R173). -/
def execAndIzy (z : Byte) (s : State) : Outcome := readAt 5 (logicA (· &&& ·)) (atIzy .read z s)

/-- `$35` AND z,X (ZPX, R173). -/
def execAndZpx (z : Byte) (s : State) : Outcome := readAt 4 (logicA (· &&& ·)) (atZpx z s)

/-- `$39` AND base,Y (ABY, R173). -/
def execAndAby (base : Word) (s : State) : Outcome := readAt 4 (logicA (· &&& ·)) (atAby .read base s)

/-- `$3D` AND base,X (ABX, R173). -/
def execAndAbx (base : Word) (s : State) : Outcome := readAt 4 (logicA (· &&& ·)) (atAbx .read base s)

/-- `$01` ORA (z,X) (IZX, R174). -/
def execOraIzx (z : Byte) (s : State) : Outcome := readAt 6 (logicA (· ||| ·)) (atIzx z s)

/-- `$05` ORA z (ZP0, R174). -/
def execOraZp0 (z : Byte) (s : State) : Outcome := readAt 3 (logicA (· ||| ·)) (atZp0 z s)

/-- `$09` ORA #imm (IMM, R174). -/
def execOraImm (imm : Byte) (s : State) : Outcome := onImm 2 (logicA (· ||| ·)) imm s

/-- `$0D` ORA addr (ABS, R174). -/
def execOraAbs (addr : Word) (s : State) : Outcome := readAt 4 (logicA (· ||| ·)) (atAbs addr s)

/-- `$11` ORA (z),Y (IZY, R174). -/
def execOraIzy (z : Byte) (s : State) : Outcome := readAt 5 (logicA (· ||| ·)) (atIzy .read z s)

/-- `$15` ORA z,X (ZPX, R174). -/
def execOraZpx (z : Byte) (s : State) : Outcome := readAt 4 (logicA (· ||| ·)) (atZpx z s)

/-- `$19` ORA base,Y (ABY, R174). -/
def execOraAby (base : Word) (s : State) : Outcome := readAt 4 (logicA (· ||| ·)) (atAby .read base s)

/-- `$1D` ORA base,X (ABX, R174). -/
def execOraAbx (base : Word) (s : State) : Outcome := readAt 4 (logicA (· ||| ·)) (atAbx .read base s)

/-- `$41` EOR (z,X) (IZX, R175). -/
def execEorIzx (z : Byte) (s : State) : Outcome := readAt 6 (logicA (· ^^^ ·)) (atIzx z s)

/-- `$45` EOR z (ZP0, R175). -/
def execEorZp0 (z : Byte) (s : State) : Outcome := readAt 3 (logicA (· ^^^ ·)) (atZp0 z s)

/-- `$49` EOR #imm (IMM, R175). -/
def execEorImm (imm : Byte) (s : State) : Outcome := onImm 2 (logicA (· ^^^ ·)) imm s

/-- `$4D` EOR addr (ABS, R175). -/
def execEorAbs (addr : Word) (s : State) : Outcome := readAt 4 (logicA (· ^^^ ·)) (atAbs addr s)

/-- `$51` EOR (z),Y (IZY, R175). -/
def execEorIzy (z : Byte) (s : State) : Outcome := readAt 5 (logicA (· ^^^ ·)) (atIzy .read z s)

/-- `$55` EOR z,X (ZPX, R175). -/
def execEorZpx (z : Byte) (s : State) : Outcome := readAt 4 (logicA (· ^^^ ·)) (atZpx z s)

/-- `$59` EOR base,Y (ABY, R175). -/
def execEorAby (base : Word) (s : State) : Outcome := readAt 4 (logicA (· ^^^ ·)) (atAby .read base s)

/-- `$5D` EOR base,X (ABX, R175). -/
def execEorAbx (base : Word) (s : State) : Outcome := readAt 4 (logicA (· ^^^ ·)) (atAbx .read base s)

/-- `$E6` INC z (ZP0, R176). -/
def execIncZp0 (z : Byte) (s : State) : Outcome := modifyAt 5 incByte (atZp0 z s)

/-- `$EE` INC addr (ABS, R176). -/
def execIncAbs (addr : Word) (s : State) : Outcome := modifyAt 6 incByte (atAbs addr s)

/-- `$F6` INC z,X (ZPX, R176). -/
def execIncZpx (z : Byte) (s : State) : Outcome := modifyAt 6 incByte (atZpx z s)

/-- `$FE` INC base,X (ABX, R176). -/
def execIncAbx (base : Word) (s : State) : Outcome := modifyAt 7 incByte (atAbx .readModifyWrite base s)

/-- `$C6` DEC z (ZP0, R177). -/
def execDecZp0 (z : Byte) (s : State) : Outcome := modifyAt 5 decByte (atZp0 z s)

/-- `$CE` DEC addr (ABS, R177). -/
def execDecAbs (addr : Word) (s : State) : Outcome := modifyAt 6 decByte (atAbs addr s)

/-- `$D6` DEC z,X (ZPX, R177). -/
def execDecZpx (z : Byte) (s : State) : Outcome := modifyAt 6 decByte (atZpx z s)

/-- `$DE` DEC base,X (ABX, R177). -/
def execDecAbx (base : Word) (s : State) : Outcome := modifyAt 7 decByte (atAbx .readModifyWrite base s)

/-- `$E8` INX (IMP, R178). -/
def execInx (s : State) : Outcome := finish 2 (loadX (s.cpu.x + 1) s)

/-- `$C8` INY (IMP, R179). -/
def execIny (s : State) : Outcome := finish 2 (loadY (s.cpu.y + 1) s)

/-- `$CA` DEX (IMP, R180). -/
def execDex (s : State) : Outcome := finish 2 (loadX (s.cpu.x - 1) s)

/-- `$88` DEY (IMP, R181). -/
def execDey (s : State) : Outcome := finish 2 (loadY (s.cpu.y - 1) s)

/-- `$06` ASL z (ZP0, R182). -/
def execAslZp0 (z : Byte) (s : State) : Outcome := modifyAt 5 aslByte (atZp0 z s)

/-- `$0A` ASL (IMP, R182). -/
def execAslImp (s : State) : Outcome := modifyA 2 aslByte s

/-- `$0E` ASL addr (ABS, R182). -/
def execAslAbs (addr : Word) (s : State) : Outcome := modifyAt 6 aslByte (atAbs addr s)

/-- `$16` ASL z,X (ZPX, R182). -/
def execAslZpx (z : Byte) (s : State) : Outcome := modifyAt 6 aslByte (atZpx z s)

/-- `$1E` ASL base,X (ABX, R182). -/
def execAslAbx (base : Word) (s : State) : Outcome := modifyAt 7 aslByte (atAbx .readModifyWrite base s)

/-- `$46` LSR z (ZP0, R183). -/
def execLsrZp0 (z : Byte) (s : State) : Outcome := modifyAt 5 lsrByte (atZp0 z s)

/-- `$4A` LSR (IMP, R183). -/
def execLsrImp (s : State) : Outcome := modifyA 2 lsrByte s

/-- `$4E` LSR addr (ABS, R183). -/
def execLsrAbs (addr : Word) (s : State) : Outcome := modifyAt 6 lsrByte (atAbs addr s)

/-- `$56` LSR z,X (ZPX, R183). -/
def execLsrZpx (z : Byte) (s : State) : Outcome := modifyAt 6 lsrByte (atZpx z s)

/-- `$5E` LSR base,X (ABX, R183). -/
def execLsrAbx (base : Word) (s : State) : Outcome := modifyAt 7 lsrByte (atAbx .readModifyWrite base s)

/-- `$26` ROL z (ZP0, R184). -/
def execRolZp0 (z : Byte) (s : State) : Outcome := modifyAt 5 rolByte (atZp0 z s)

/-- `$2A` ROL (IMP, R184). -/
def execRolImp (s : State) : Outcome := modifyA 2 rolByte s

/-- `$2E` ROL addr (ABS, R184). -/
def execRolAbs (addr : Word) (s : State) : Outcome := modifyAt 6 rolByte (atAbs addr s)

/-- `$36` ROL z,X (ZPX, R184). -/
def execRolZpx (z : Byte) (s : State) : Outcome := modifyAt 6 rolByte (atZpx z s)

/-- `$3E` ROL base,X (ABX, R184). -/
def execRolAbx (base : Word) (s : State) : Outcome := modifyAt 7 rolByte (atAbx .readModifyWrite base s)

/-- `$66` ROR z (ZP0, R185). -/
def execRorZp0 (z : Byte) (s : State) : Outcome := modifyAt 5 rorByte (atZp0 z s)

/-- `$6A` ROR (IMP, R185). -/
def execRorImp (s : State) : Outcome := modifyA 2 rorByte s

/-- `$6E` ROR addr (ABS, R185). -/
def execRorAbs (addr : Word) (s : State) : Outcome := modifyAt 6 rorByte (atAbs addr s)

/-- `$76` ROR z,X (ZPX, R185). -/
def execRorZpx (z : Byte) (s : State) : Outcome := modifyAt 6 rorByte (atZpx z s)

/-- `$7E` ROR base,X (ABX, R185). -/
def execRorAbx (base : Word) (s : State) : Outcome := modifyAt 7 rorByte (atAbx .readModifyWrite base s)

/-- `$24` BIT z (ZP0, R186). -/
def execBitZp0 (z : Byte) (s : State) : Outcome := readAt 3 bitTest (atZp0 z s)

/-- `$2C` BIT addr (ABS, R186). -/
def execBitAbs (addr : Word) (s : State) : Outcome := readAt 4 bitTest (atAbs addr s)

end Sys2Proof.Machine
end

