-- ==== Sys2Proof/Machine/Branch.lean ====
section
/-! DEFINITION. Conditional branches (43_branch.md, R210 to R218).
One meaning for each row of the opcode table. A meaning runs on the state in which the opcode and its operand bytes have
been read and PC is past them (R25, R283); it gives the instruction its effect and its cycle count (R117, R118). -/

namespace Sys2Proof.Machine

/-- `$90` BCC off (REL, R211). -/
def execBcc (off : Byte) (s : State) : Outcome := branchIf (!flagC s.cpu.p) off s

/-- `$B0` BCS off (REL, R212). -/
def execBcs (off : Byte) (s : State) : Outcome := branchIf (flagC s.cpu.p) off s

/-- `$F0` BEQ off (REL, R213). -/
def execBeq (off : Byte) (s : State) : Outcome := branchIf (flagZ s.cpu.p) off s

/-- `$D0` BNE off (REL, R214). -/
def execBne (off : Byte) (s : State) : Outcome := branchIf (!flagZ s.cpu.p) off s

/-- `$30` BMI off (REL, R215). -/
def execBmi (off : Byte) (s : State) : Outcome := branchIf (flagN s.cpu.p) off s

/-- `$10` BPL off (REL, R216). -/
def execBpl (off : Byte) (s : State) : Outcome := branchIf (!flagN s.cpu.p) off s

/-- `$50` BVC off (REL, R217). -/
def execBvc (off : Byte) (s : State) : Outcome := branchIf (!flagV s.cpu.p) off s

/-- `$70` BVS off (REL, R218). -/
def execBvs (off : Byte) (s : State) : Outcome := branchIf (flagV s.cpu.p) off s

end Sys2Proof.Machine
end

