-- ==== Sys2Proof/Machine/Compare.lean ====
section
/-! DEFINITION. Compares (42_compare.md, R200 to R203).
One meaning for each row of the opcode table. A meaning runs on the state in which the opcode and its operand bytes have
been read and PC is past them (R25, R283); it gives the instruction its effect and its cycle count (R117, R118). -/

namespace Sys2Proof.Machine

/-- `$C1` CMP (z,X) (IZX, R201). -/
def execCmpIzx (z : Byte) (s : State) : Outcome := readAt 6 (compareWith (·.cpu.a)) (atIzx z s)

/-- `$C5` CMP z (ZP0, R201). -/
def execCmpZp0 (z : Byte) (s : State) : Outcome := readAt 3 (compareWith (·.cpu.a)) (atZp0 z s)

/-- `$C9` CMP #imm (IMM, R201). -/
def execCmpImm (imm : Byte) (s : State) : Outcome := onImm 2 (compareWith (·.cpu.a)) imm s

/-- `$CD` CMP addr (ABS, R201). -/
def execCmpAbs (addr : Word) (s : State) : Outcome := readAt 4 (compareWith (·.cpu.a)) (atAbs addr s)

/-- `$D1` CMP (z),Y (IZY, R201). -/
def execCmpIzy (z : Byte) (s : State) : Outcome := readAt 5 (compareWith (·.cpu.a)) (atIzy .read z s)

/-- `$D5` CMP z,X (ZPX, R201). -/
def execCmpZpx (z : Byte) (s : State) : Outcome := readAt 4 (compareWith (·.cpu.a)) (atZpx z s)

/-- `$D9` CMP base,Y (ABY, R201). -/
def execCmpAby (base : Word) (s : State) : Outcome := readAt 4 (compareWith (·.cpu.a)) (atAby .read base s)

/-- `$DD` CMP base,X (ABX, R201). -/
def execCmpAbx (base : Word) (s : State) : Outcome := readAt 4 (compareWith (·.cpu.a)) (atAbx .read base s)

/-- `$E0` CPX #imm (IMM, R202). -/
def execCpxImm (imm : Byte) (s : State) : Outcome := onImm 2 (compareWith (·.cpu.x)) imm s

/-- `$E4` CPX z (ZP0, R202). -/
def execCpxZp0 (z : Byte) (s : State) : Outcome := readAt 3 (compareWith (·.cpu.x)) (atZp0 z s)

/-- `$EC` CPX addr (ABS, R202). -/
def execCpxAbs (addr : Word) (s : State) : Outcome := readAt 4 (compareWith (·.cpu.x)) (atAbs addr s)

/-- `$C0` CPY #imm (IMM, R203). -/
def execCpyImm (imm : Byte) (s : State) : Outcome := onImm 2 (compareWith (·.cpu.y)) imm s

/-- `$C4` CPY z (ZP0, R203). -/
def execCpyZp0 (z : Byte) (s : State) : Outcome := readAt 3 (compareWith (·.cpu.y)) (atZp0 z s)

/-- `$CC` CPY addr (ABS, R203). -/
def execCpyAbs (addr : Word) (s : State) : Outcome := readAt 4 (compareWith (·.cpu.y)) (atAbs addr s)

end Sys2Proof.Machine
end

