-- ==== Sys2Proof/Machine/DataMovement.lean ====
section
/-! DEFINITION. Loads, stores and transfers (40_data_movement.md, R140 to R152).
One meaning for each row of the opcode table. A meaning runs on the state in which the opcode and its operand bytes have
been read and PC is past them (R25, R283); it gives the instruction its effect and its cycle count (R117, R118). -/

namespace Sys2Proof.Machine

/-- `$A1` LDA (z,X) (IZX, R141). -/
def execLdaIzx (z : Byte) (s : State) : Outcome := readAt 6 loadA (atIzx z s)

/-- `$A5` LDA z (ZP0, R141). -/
def execLdaZp0 (z : Byte) (s : State) : Outcome := readAt 3 loadA (atZp0 z s)

/-- `$A9` LDA #imm (IMM, R141). -/
def execLdaImm (imm : Byte) (s : State) : Outcome := onImm 2 loadA imm s

/-- `$AD` LDA addr (ABS, R141). -/
def execLdaAbs (addr : Word) (s : State) : Outcome := readAt 4 loadA (atAbs addr s)

/-- `$B1` LDA (z),Y (IZY, R141). -/
def execLdaIzy (z : Byte) (s : State) : Outcome := readAt 5 loadA (atIzy .read z s)

/-- `$B5` LDA z,X (ZPX, R141). -/
def execLdaZpx (z : Byte) (s : State) : Outcome := readAt 4 loadA (atZpx z s)

/-- `$B9` LDA base,Y (ABY, R141). -/
def execLdaAby (base : Word) (s : State) : Outcome := readAt 4 loadA (atAby .read base s)

/-- `$BD` LDA base,X (ABX, R141). -/
def execLdaAbx (base : Word) (s : State) : Outcome := readAt 4 loadA (atAbx .read base s)

/-- `$A2` LDX #imm (IMM, R142). -/
def execLdxImm (imm : Byte) (s : State) : Outcome := onImm 2 loadX imm s

/-- `$A6` LDX z (ZP0, R142). -/
def execLdxZp0 (z : Byte) (s : State) : Outcome := readAt 3 loadX (atZp0 z s)

/-- `$AE` LDX addr (ABS, R142). -/
def execLdxAbs (addr : Word) (s : State) : Outcome := readAt 4 loadX (atAbs addr s)

/-- `$B6` LDX z,Y (ZPY, R142). -/
def execLdxZpy (z : Byte) (s : State) : Outcome := readAt 4 loadX (atZpy z s)

/-- `$BE` LDX base,Y (ABY, R142). -/
def execLdxAby (base : Word) (s : State) : Outcome := readAt 4 loadX (atAby .read base s)

/-- `$A0` LDY #imm (IMM, R143). -/
def execLdyImm (imm : Byte) (s : State) : Outcome := onImm 2 loadY imm s

/-- `$A4` LDY z (ZP0, R143). -/
def execLdyZp0 (z : Byte) (s : State) : Outcome := readAt 3 loadY (atZp0 z s)

/-- `$AC` LDY addr (ABS, R143). -/
def execLdyAbs (addr : Word) (s : State) : Outcome := readAt 4 loadY (atAbs addr s)

/-- `$B4` LDY z,X (ZPX, R143). -/
def execLdyZpx (z : Byte) (s : State) : Outcome := readAt 4 loadY (atZpx z s)

/-- `$BC` LDY base,X (ABX, R143). -/
def execLdyAbx (base : Word) (s : State) : Outcome := readAt 4 loadY (atAbx .read base s)

/-- `$81` STA (z,X) (IZX, R144). -/
def execStaIzx (z : Byte) (s : State) : Outcome := writeAt 6 (·.cpu.a) (atIzx z s)

/-- `$85` STA z (ZP0, R144). -/
def execStaZp0 (z : Byte) (s : State) : Outcome := writeAt 3 (·.cpu.a) (atZp0 z s)

/-- `$8D` STA addr (ABS, R144). -/
def execStaAbs (addr : Word) (s : State) : Outcome := writeAt 4 (·.cpu.a) (atAbs addr s)

/-- `$91` STA (z),Y (IZY, R144). -/
def execStaIzy (z : Byte) (s : State) : Outcome := writeAt 6 (·.cpu.a) (atIzy .write z s)

/-- `$95` STA z,X (ZPX, R144). -/
def execStaZpx (z : Byte) (s : State) : Outcome := writeAt 4 (·.cpu.a) (atZpx z s)

/-- `$99` STA base,Y (ABY, R144). -/
def execStaAby (base : Word) (s : State) : Outcome := writeAt 5 (·.cpu.a) (atAby .write base s)

/-- `$9D` STA base,X (ABX, R144). -/
def execStaAbx (base : Word) (s : State) : Outcome := writeAt 5 (·.cpu.a) (atAbx .write base s)

/-- `$86` STX z (ZP0, R145). -/
def execStxZp0 (z : Byte) (s : State) : Outcome := writeAt 3 (·.cpu.x) (atZp0 z s)

/-- `$8E` STX addr (ABS, R145). -/
def execStxAbs (addr : Word) (s : State) : Outcome := writeAt 4 (·.cpu.x) (atAbs addr s)

/-- `$96` STX z,Y (ZPY, R145). -/
def execStxZpy (z : Byte) (s : State) : Outcome := writeAt 4 (·.cpu.x) (atZpy z s)

/-- `$84` STY z (ZP0, R146). -/
def execStyZp0 (z : Byte) (s : State) : Outcome := writeAt 3 (·.cpu.y) (atZp0 z s)

/-- `$8C` STY addr (ABS, R146). -/
def execStyAbs (addr : Word) (s : State) : Outcome := writeAt 4 (·.cpu.y) (atAbs addr s)

/-- `$94` STY z,X (ZPX, R146). -/
def execStyZpx (z : Byte) (s : State) : Outcome := writeAt 4 (·.cpu.y) (atZpx z s)

/-- `$AA` TAX (IMP, R147). -/
def execTax (s : State) : Outcome := finish 2 (loadX s.cpu.a s)

/-- `$A8` TAY (IMP, R148). -/
def execTay (s : State) : Outcome := finish 2 (loadY s.cpu.a s)

/-- `$8A` TXA (IMP, R149). -/
def execTxa (s : State) : Outcome := finish 2 (loadA s.cpu.x s)

/-- `$98` TYA (IMP, R150). -/
def execTya (s : State) : Outcome := finish 2 (loadA s.cpu.y s)

/-- `$BA` TSX (IMP, R151). -/
def execTsx (s : State) : Outcome := finish 2 (loadX s.cpu.sp s)

/-- `$9A` TXS (IMP, R152). -/
def execTxs (s : State) : Outcome := finish 2 (s.setSP s.cpu.x)

end Sys2Proof.Machine
end

