-- ==== Sys2Proof/Machine/FlagOps.lean ====
section
/-! DEFINITION. Flag instructions (45_flag.md, R235 to R241).
One meaning for each row of the opcode table. A meaning runs on the state in which the opcode and its operand bytes have
been read and PC is past them (R25, R283); it gives the instruction its effect and its cycle count (R117, R118). -/

namespace Sys2Proof.Machine

/-- `$18` CLC (IMP, R235). -/
def execClc (s : State) : Outcome := finish 2 (s.setP (setC false s.cpu.p))

/-- `$38` SEC (IMP, R236). -/
def execSec (s : State) : Outcome := finish 2 (s.setP (setC true s.cpu.p))

/-- `$58` CLI (IMP, R237). -/
def execCli (s : State) : Outcome := finish 2 ((s.setIWindow (some (flagI s.cpu.p))).setP (setI false s.cpu.p))

/-- `$78` SEI (IMP, R238). -/
def execSei (s : State) : Outcome := finish 2 ((s.setIWindow (some (flagI s.cpu.p))).setP (setI true s.cpu.p))

/-- `$D8` CLD (IMP, R239). -/
def execCld (s : State) : Outcome := finish 2 (s.setP (setD false s.cpu.p))

/-- `$F8` SED (IMP, R240). -/
def execSed (s : State) : Outcome := finish 2 (s.setP (setD true s.cpu.p))

/-- `$B8` CLV (IMP, R241). -/
def execClv (s : State) : Outcome := finish 2 (s.setP (setV false s.cpu.p))

end Sys2Proof.Machine
end

