-- ==== Sys2Proof/Machine/Jump.lean ====
section
/-! DEFINITION. Jumps, subroutines, return from interrupt and BRK (46_jump_subroutine.md, R250 to R254).
One meaning for each row of the opcode table. A meaning runs on the state in which the opcode and its operand bytes have
been read and PC is past them (R25, R283); it gives the instruction its effect and its cycle count (R117, R118). -/

namespace Sys2Proof.Machine

/-- `$4C` JMP addr (ABS, R250). -/
def execJmpAbs (addr : Word) (s : State) : Outcome := finish 3 (s.setPC addr)

/-- `$6C` JMP (ptr) (IND, R250). -/
def execJmpInd (ptr : Word) (s : State) : Outcome := let l := atInd ptr s; finish 5 (l.st.setPC l.ea)

/-- `$20` JSR addr (ABS, R251). -/
def execJsr (addr : Word) (s : State) : Outcome := finish 6 ((pushWord (s.cpu.pc - 1) s).setPC addr)

/-- `$60` RTS (IMP, R252). -/
def execRts (s : State) : Outcome := let (r, s) := pullWord s; finish 6 (s.setPC (r + 1))

/-- `$40` RTI (IMP, R253). -/
def execRti (s : State) : Outcome := finish 6 (returnFromException s)

/-- `$00` BRK (IMP, R254). -/
def execBrk (s : State) : Outcome := finish 7 (takeException vectorIrq true (s.setPC (s.cpu.pc + 1)))

end Sys2Proof.Machine
end

