-- ==== Sys2Proof/Machine/Nop.lean ====
section
/-! DEFINITION. NOP and the 105 unofficial opcodes (47_nop_unofficial.md, R265 to R268).
One meaning for each row of the opcode table. A meaning runs on the state in which the opcode and its operand bytes have
been read and PC is past them (R25, R283); it gives the instruction its effect and its cycle count (R117, R118). -/

namespace Sys2Proof.Machine

/-- `$EA` NOP (IMP, R265). -/
def execNop (s : State) : Outcome := finish 2 s

/-- `$02` *JAM (IMP, R267). -/
def execJam02 (s : State) : Outcome := unofficial 0x02 1 2 .special noAddress s

/-- `$03` *SLO (z,X) (IZX, R267). -/
def execSloIzx (z : Byte) (s : State) : Outcome := unofficial 0x03 2 8 .readModifyWrite (atIzx z) s

/-- `$04` *NOP z (ZP0, R267). -/
def execUnop04 (z : Byte) (s : State) : Outcome := unofficial 0x04 2 3 .read (atZp0 z) s

/-- `$07` *SLO z (ZP0, R267). -/
def execSloZp0 (z : Byte) (s : State) : Outcome := unofficial 0x07 2 5 .readModifyWrite (atZp0 z) s

/-- `$0B` *ANC #imm (IMM, R267). -/
def execAnc0B (_imm : Byte) (s : State) : Outcome := unofficial 0x0B 2 2 .special noAddress s

/-- `$0C` *NOP addr (ABS, R267). -/
def execUnop0C (addr : Word) (s : State) : Outcome := unofficial 0x0C 3 4 .read (atAbs addr) s

/-- `$0F` *SLO addr (ABS, R267). -/
def execSloAbs (addr : Word) (s : State) : Outcome := unofficial 0x0F 3 6 .readModifyWrite (atAbs addr) s

/-- `$12` *JAM (IMP, R267). -/
def execJam12 (s : State) : Outcome := unofficial 0x12 1 2 .special noAddress s

/-- `$13` *SLO (z),Y (IZY, R267). -/
def execSloIzy (z : Byte) (s : State) : Outcome := unofficial 0x13 2 8 .readModifyWrite (atIzy .readModifyWrite z) s

/-- `$14` *NOP z,X (ZPX, R267). -/
def execUnop14 (z : Byte) (s : State) : Outcome := unofficial 0x14 2 4 .read (atZpx z) s

/-- `$17` *SLO z,X (ZPX, R267). -/
def execSloZpx (z : Byte) (s : State) : Outcome := unofficial 0x17 2 6 .readModifyWrite (atZpx z) s

/-- `$1A` *NOP (IMP, R267). -/
def execUnop1A (s : State) : Outcome := unofficial 0x1A 1 2 .special noAddress s

/-- `$1B` *SLO base,Y (ABY, R267). -/
def execSloAby (base : Word) (s : State) : Outcome :=
  unofficial 0x1B 3 7 .readModifyWrite (atAby .readModifyWrite base) s

/-- `$1C` *NOP base,X (ABX, R267). -/
def execUnop1C (base : Word) (s : State) : Outcome := unofficial 0x1C 3 4 .read (atAbx .read base) s

/-- `$1F` *SLO base,X (ABX, R267). -/
def execSloAbx (base : Word) (s : State) : Outcome :=
  unofficial 0x1F 3 7 .readModifyWrite (atAbx .readModifyWrite base) s

/-- `$22` *JAM (IMP, R267). -/
def execJam22 (s : State) : Outcome := unofficial 0x22 1 2 .special noAddress s

/-- `$23` *RLA (z,X) (IZX, R267). -/
def execRlaIzx (z : Byte) (s : State) : Outcome := unofficial 0x23 2 8 .readModifyWrite (atIzx z) s

/-- `$27` *RLA z (ZP0, R267). -/
def execRlaZp0 (z : Byte) (s : State) : Outcome := unofficial 0x27 2 5 .readModifyWrite (atZp0 z) s

/-- `$2B` *ANC #imm (IMM, R267). -/
def execAnc2B (_imm : Byte) (s : State) : Outcome := unofficial 0x2B 2 2 .special noAddress s

/-- `$2F` *RLA addr (ABS, R267). -/
def execRlaAbs (addr : Word) (s : State) : Outcome := unofficial 0x2F 3 6 .readModifyWrite (atAbs addr) s

/-- `$32` *JAM (IMP, R267). -/
def execJam32 (s : State) : Outcome := unofficial 0x32 1 2 .special noAddress s

/-- `$33` *RLA (z),Y (IZY, R267). -/
def execRlaIzy (z : Byte) (s : State) : Outcome := unofficial 0x33 2 8 .readModifyWrite (atIzy .readModifyWrite z) s

/-- `$34` *NOP z,X (ZPX, R267). -/
def execUnop34 (z : Byte) (s : State) : Outcome := unofficial 0x34 2 4 .read (atZpx z) s

/-- `$37` *RLA z,X (ZPX, R267). -/
def execRlaZpx (z : Byte) (s : State) : Outcome := unofficial 0x37 2 6 .readModifyWrite (atZpx z) s

/-- `$3A` *NOP (IMP, R267). -/
def execUnop3A (s : State) : Outcome := unofficial 0x3A 1 2 .special noAddress s

/-- `$3B` *RLA base,Y (ABY, R267). -/
def execRlaAby (base : Word) (s : State) : Outcome :=
  unofficial 0x3B 3 7 .readModifyWrite (atAby .readModifyWrite base) s

/-- `$3C` *NOP base,X (ABX, R267). -/
def execUnop3C (base : Word) (s : State) : Outcome := unofficial 0x3C 3 4 .read (atAbx .read base) s

/-- `$3F` *RLA base,X (ABX, R267). -/
def execRlaAbx (base : Word) (s : State) : Outcome :=
  unofficial 0x3F 3 7 .readModifyWrite (atAbx .readModifyWrite base) s

/-- `$42` *JAM (IMP, R267). -/
def execJam42 (s : State) : Outcome := unofficial 0x42 1 2 .special noAddress s

/-- `$43` *SRE (z,X) (IZX, R267). -/
def execSreIzx (z : Byte) (s : State) : Outcome := unofficial 0x43 2 8 .readModifyWrite (atIzx z) s

/-- `$44` *NOP z (ZP0, R267). -/
def execUnop44 (z : Byte) (s : State) : Outcome := unofficial 0x44 2 3 .read (atZp0 z) s

/-- `$47` *SRE z (ZP0, R267). -/
def execSreZp0 (z : Byte) (s : State) : Outcome := unofficial 0x47 2 5 .readModifyWrite (atZp0 z) s

/-- `$4B` *ALR #imm (IMM, R267). -/
def execAlr (_imm : Byte) (s : State) : Outcome := unofficial 0x4B 2 2 .special noAddress s

/-- `$4F` *SRE addr (ABS, R267). -/
def execSreAbs (addr : Word) (s : State) : Outcome := unofficial 0x4F 3 6 .readModifyWrite (atAbs addr) s

/-- `$52` *JAM (IMP, R267). -/
def execJam52 (s : State) : Outcome := unofficial 0x52 1 2 .special noAddress s

/-- `$53` *SRE (z),Y (IZY, R267). -/
def execSreIzy (z : Byte) (s : State) : Outcome := unofficial 0x53 2 8 .readModifyWrite (atIzy .readModifyWrite z) s

/-- `$54` *NOP z,X (ZPX, R267). -/
def execUnop54 (z : Byte) (s : State) : Outcome := unofficial 0x54 2 4 .read (atZpx z) s

/-- `$57` *SRE z,X (ZPX, R267). -/
def execSreZpx (z : Byte) (s : State) : Outcome := unofficial 0x57 2 6 .readModifyWrite (atZpx z) s

/-- `$5A` *NOP (IMP, R267). -/
def execUnop5A (s : State) : Outcome := unofficial 0x5A 1 2 .special noAddress s

/-- `$5B` *SRE base,Y (ABY, R267). -/
def execSreAby (base : Word) (s : State) : Outcome :=
  unofficial 0x5B 3 7 .readModifyWrite (atAby .readModifyWrite base) s

/-- `$5C` *NOP base,X (ABX, R267). -/
def execUnop5C (base : Word) (s : State) : Outcome := unofficial 0x5C 3 4 .read (atAbx .read base) s

/-- `$5F` *SRE base,X (ABX, R267). -/
def execSreAbx (base : Word) (s : State) : Outcome :=
  unofficial 0x5F 3 7 .readModifyWrite (atAbx .readModifyWrite base) s

/-- `$62` *JAM (IMP, R267). -/
def execJam62 (s : State) : Outcome := unofficial 0x62 1 2 .special noAddress s

/-- `$63` *RRA (z,X) (IZX, R267). -/
def execRraIzx (z : Byte) (s : State) : Outcome := unofficial 0x63 2 8 .readModifyWrite (atIzx z) s

/-- `$64` *NOP z (ZP0, R267). -/
def execUnop64 (z : Byte) (s : State) : Outcome := unofficial 0x64 2 3 .read (atZp0 z) s

/-- `$67` *RRA z (ZP0, R267). -/
def execRraZp0 (z : Byte) (s : State) : Outcome := unofficial 0x67 2 5 .readModifyWrite (atZp0 z) s

/-- `$6B` *ARR #imm (IMM, R267). -/
def execArr (_imm : Byte) (s : State) : Outcome := unofficial 0x6B 2 2 .special noAddress s

/-- `$6F` *RRA addr (ABS, R267). -/
def execRraAbs (addr : Word) (s : State) : Outcome := unofficial 0x6F 3 6 .readModifyWrite (atAbs addr) s

/-- `$72` *JAM (IMP, R267). -/
def execJam72 (s : State) : Outcome := unofficial 0x72 1 2 .special noAddress s

/-- `$73` *RRA (z),Y (IZY, R267). -/
def execRraIzy (z : Byte) (s : State) : Outcome := unofficial 0x73 2 8 .readModifyWrite (atIzy .readModifyWrite z) s

/-- `$74` *NOP z,X (ZPX, R267). -/
def execUnop74 (z : Byte) (s : State) : Outcome := unofficial 0x74 2 4 .read (atZpx z) s

/-- `$77` *RRA z,X (ZPX, R267). -/
def execRraZpx (z : Byte) (s : State) : Outcome := unofficial 0x77 2 6 .readModifyWrite (atZpx z) s

/-- `$7A` *NOP (IMP, R267). -/
def execUnop7A (s : State) : Outcome := unofficial 0x7A 1 2 .special noAddress s

/-- `$7B` *RRA base,Y (ABY, R267). -/
def execRraAby (base : Word) (s : State) : Outcome :=
  unofficial 0x7B 3 7 .readModifyWrite (atAby .readModifyWrite base) s

/-- `$7C` *NOP base,X (ABX, R267). -/
def execUnop7C (base : Word) (s : State) : Outcome := unofficial 0x7C 3 4 .read (atAbx .read base) s

/-- `$7F` *RRA base,X (ABX, R267). -/
def execRraAbx (base : Word) (s : State) : Outcome :=
  unofficial 0x7F 3 7 .readModifyWrite (atAbx .readModifyWrite base) s

/-- `$80` *NOP #imm (IMM, R267). -/
def execUnop80 (_imm : Byte) (s : State) : Outcome := unofficial 0x80 2 2 .special noAddress s

/-- `$82` *NOP #imm (IMM, R267). -/
def execUnop82 (_imm : Byte) (s : State) : Outcome := unofficial 0x82 2 2 .special noAddress s

/-- `$83` *SAX (z,X) (IZX, R267). -/
def execSaxIzx (z : Byte) (s : State) : Outcome := unofficial 0x83 2 6 .write (atIzx z) s

/-- `$87` *SAX z (ZP0, R267). -/
def execSaxZp0 (z : Byte) (s : State) : Outcome := unofficial 0x87 2 3 .write (atZp0 z) s

/-- `$89` *NOP #imm (IMM, R267). -/
def execUnop89 (_imm : Byte) (s : State) : Outcome := unofficial 0x89 2 2 .special noAddress s

/-- `$8B` *ANE #imm (IMM, R267). -/
def execAne (_imm : Byte) (s : State) : Outcome := unofficial 0x8B 2 2 .special noAddress s

/-- `$8F` *SAX addr (ABS, R267). -/
def execSaxAbs (addr : Word) (s : State) : Outcome := unofficial 0x8F 3 4 .write (atAbs addr) s

/-- `$92` *JAM (IMP, R267). -/
def execJam92 (s : State) : Outcome := unofficial 0x92 1 2 .special noAddress s

/-- `$93` *SHA (z),Y (IZY, R267). -/
def execShaIzy (z : Byte) (s : State) : Outcome := unofficial 0x93 2 6 .write (atIzy .write z) s

/-- `$97` *SAX z,Y (ZPY, R267). -/
def execSaxZpy (z : Byte) (s : State) : Outcome := unofficial 0x97 2 4 .write (atZpy z) s

/-- `$9B` *TAS base,Y (ABY, R267). -/
def execTas (base : Word) (s : State) : Outcome := unofficial 0x9B 3 5 .write (atAby .write base) s

/-- `$9C` *SHY base,X (ABX, R267). -/
def execShy (base : Word) (s : State) : Outcome := unofficial 0x9C 3 5 .write (atAbx .write base) s

/-- `$9E` *SHX base,Y (ABY, R267). -/
def execShx (base : Word) (s : State) : Outcome := unofficial 0x9E 3 5 .write (atAby .write base) s

/-- `$9F` *SHA base,Y (ABY, R267). -/
def execShaAby (base : Word) (s : State) : Outcome := unofficial 0x9F 3 5 .write (atAby .write base) s

/-- `$A3` *LAX (z,X) (IZX, R267). -/
def execLaxIzx (z : Byte) (s : State) : Outcome := unofficial 0xA3 2 6 .read (atIzx z) s

/-- `$A7` *LAX z (ZP0, R267). -/
def execLaxZp0 (z : Byte) (s : State) : Outcome := unofficial 0xA7 2 3 .read (atZp0 z) s

/-- `$AB` *LXA #imm (IMM, R267). -/
def execLxa (_imm : Byte) (s : State) : Outcome := unofficial 0xAB 2 2 .special noAddress s

/-- `$AF` *LAX addr (ABS, R267). -/
def execLaxAbs (addr : Word) (s : State) : Outcome := unofficial 0xAF 3 4 .read (atAbs addr) s

/-- `$B2` *JAM (IMP, R267). -/
def execJamB2 (s : State) : Outcome := unofficial 0xB2 1 2 .special noAddress s

/-- `$B3` *LAX (z),Y (IZY, R267). -/
def execLaxIzy (z : Byte) (s : State) : Outcome := unofficial 0xB3 2 5 .read (atIzy .read z) s

/-- `$B7` *LAX z,Y (ZPY, R267). -/
def execLaxZpy (z : Byte) (s : State) : Outcome := unofficial 0xB7 2 4 .read (atZpy z) s

/-- `$BB` *LAS base,Y (ABY, R267). -/
def execLas (base : Word) (s : State) : Outcome := unofficial 0xBB 3 4 .read (atAby .read base) s

/-- `$BF` *LAX base,Y (ABY, R267). -/
def execLaxAby (base : Word) (s : State) : Outcome := unofficial 0xBF 3 4 .read (atAby .read base) s

/-- `$C2` *NOP #imm (IMM, R267). -/
def execUnopC2 (_imm : Byte) (s : State) : Outcome := unofficial 0xC2 2 2 .special noAddress s

/-- `$C3` *DCP (z,X) (IZX, R267). -/
def execDcpIzx (z : Byte) (s : State) : Outcome := unofficial 0xC3 2 8 .readModifyWrite (atIzx z) s

/-- `$C7` *DCP z (ZP0, R267). -/
def execDcpZp0 (z : Byte) (s : State) : Outcome := unofficial 0xC7 2 5 .readModifyWrite (atZp0 z) s

/-- `$CB` *SBX #imm (IMM, R267). -/
def execSbx (_imm : Byte) (s : State) : Outcome := unofficial 0xCB 2 2 .special noAddress s

/-- `$CF` *DCP addr (ABS, R267). -/
def execDcpAbs (addr : Word) (s : State) : Outcome := unofficial 0xCF 3 6 .readModifyWrite (atAbs addr) s

/-- `$D2` *JAM (IMP, R267). -/
def execJamD2 (s : State) : Outcome := unofficial 0xD2 1 2 .special noAddress s

/-- `$D3` *DCP (z),Y (IZY, R267). -/
def execDcpIzy (z : Byte) (s : State) : Outcome := unofficial 0xD3 2 8 .readModifyWrite (atIzy .readModifyWrite z) s

/-- `$D4` *NOP z,X (ZPX, R267). -/
def execUnopD4 (z : Byte) (s : State) : Outcome := unofficial 0xD4 2 4 .read (atZpx z) s

/-- `$D7` *DCP z,X (ZPX, R267). -/
def execDcpZpx (z : Byte) (s : State) : Outcome := unofficial 0xD7 2 6 .readModifyWrite (atZpx z) s

/-- `$DA` *NOP (IMP, R267). -/
def execUnopDA (s : State) : Outcome := unofficial 0xDA 1 2 .special noAddress s

/-- `$DB` *DCP base,Y (ABY, R267). -/
def execDcpAby (base : Word) (s : State) : Outcome :=
  unofficial 0xDB 3 7 .readModifyWrite (atAby .readModifyWrite base) s

/-- `$DC` *NOP base,X (ABX, R267). -/
def execUnopDC (base : Word) (s : State) : Outcome := unofficial 0xDC 3 4 .read (atAbx .read base) s

/-- `$DF` *DCP base,X (ABX, R267). -/
def execDcpAbx (base : Word) (s : State) : Outcome :=
  unofficial 0xDF 3 7 .readModifyWrite (atAbx .readModifyWrite base) s

/-- `$E2` *NOP #imm (IMM, R267). -/
def execUnopE2 (_imm : Byte) (s : State) : Outcome := unofficial 0xE2 2 2 .special noAddress s

/-- `$E3` *ISC (z,X) (IZX, R267). -/
def execIscIzx (z : Byte) (s : State) : Outcome := unofficial 0xE3 2 8 .readModifyWrite (atIzx z) s

/-- `$E7` *ISC z (ZP0, R267). -/
def execIscZp0 (z : Byte) (s : State) : Outcome := unofficial 0xE7 2 5 .readModifyWrite (atZp0 z) s

/-- `$EB` *USBC #imm (IMM, R267). -/
def execUsbc (_imm : Byte) (s : State) : Outcome := unofficial 0xEB 2 2 .special noAddress s

/-- `$EF` *ISC addr (ABS, R267). -/
def execIscAbs (addr : Word) (s : State) : Outcome := unofficial 0xEF 3 6 .readModifyWrite (atAbs addr) s

/-- `$F2` *JAM (IMP, R267). -/
def execJamF2 (s : State) : Outcome := unofficial 0xF2 1 2 .special noAddress s

/-- `$F3` *ISC (z),Y (IZY, R267). -/
def execIscIzy (z : Byte) (s : State) : Outcome := unofficial 0xF3 2 8 .readModifyWrite (atIzy .readModifyWrite z) s

/-- `$F4` *NOP z,X (ZPX, R267). -/
def execUnopF4 (z : Byte) (s : State) : Outcome := unofficial 0xF4 2 4 .read (atZpx z) s

/-- `$F7` *ISC z,X (ZPX, R267). -/
def execIscZpx (z : Byte) (s : State) : Outcome := unofficial 0xF7 2 6 .readModifyWrite (atZpx z) s

/-- `$FA` *NOP (IMP, R267). -/
def execUnopFA (s : State) : Outcome := unofficial 0xFA 1 2 .special noAddress s

/-- `$FB` *ISC base,Y (ABY, R267). -/
def execIscAby (base : Word) (s : State) : Outcome :=
  unofficial 0xFB 3 7 .readModifyWrite (atAby .readModifyWrite base) s

/-- `$FC` *NOP base,X (ABX, R267). -/
def execUnopFC (base : Word) (s : State) : Outcome := unofficial 0xFC 3 4 .read (atAbx .read base) s

/-- `$FF` *ISC base,X (ABX, R267). -/
def execIscAbx (base : Word) (s : State) : Outcome :=
  unofficial 0xFF 3 7 .readModifyWrite (atAbx .readModifyWrite base) s

end Sys2Proof.Machine
end

