-- ==== Sys2Proof/Machine/Stack.lean ====
section
/-! DEFINITION. Stack instructions (44_stack.md, R225 to R229).
One meaning for each row of the opcode table. A meaning runs on the state in which the opcode and its operand bytes have
been read and PC is past them (R25, R283); it gives the instruction its effect and its cycle count (R117, R118). -/

namespace Sys2Proof.Machine

/-- What PLP does with the pulled byte (R229): P, and a latency window under `PLP_I_LATENCY` (R296). -/
def plp (v : Byte) (s : State) : State :=
  let t := s.setP (pulledP v)
  if s.cfg.plpILatency then t.setIWindow (some (flagI s.cpu.p)) else t

/-- `$08` PHP (IMP, R226). -/
def execPhp (s : State) : Outcome := finish 3 (push (pushedP true s.cpu.p) s)

/-- `$48` PHA (IMP, R227). -/
def execPha (s : State) : Outcome := finish 3 (push s.cpu.a s)

/-- `$68` PLA (IMP, R228). -/
def execPla (s : State) : Outcome := let (v, s) := pull s; finish 4 (loadA v s)

/-- `$28` PLP (IMP, R229). -/
def execPlp (s : State) : Outcome := let (v, s) := pull s; finish 4 (plp v s)

end Sys2Proof.Machine
end

