-- ==== Sys2Proof/Machine/Dispatch.lean ====
section
/-! DEFINITION. One arm per instruction: the meaning of each row of the opcode table (R118). -/

namespace Sys2Proof.Machine

def exec (i : Instr) (s : State) : Host.Outcome State Fault Refusal :=
  match i with
  | .brk => Sys2Proof.Machine.execBrk s
  | .oraIzx z => Sys2Proof.Machine.execOraIzx z s
  | .jam02 => Sys2Proof.Machine.execJam02 s
  | .sloIzx z => Sys2Proof.Machine.execSloIzx z s
  | .unop04 z => Sys2Proof.Machine.execUnop04 z s
  | .oraZp0 z => Sys2Proof.Machine.execOraZp0 z s
  | .aslZp0 z => Sys2Proof.Machine.execAslZp0 z s
  | .sloZp0 z => Sys2Proof.Machine.execSloZp0 z s
  | .php => Sys2Proof.Machine.execPhp s
  | .oraImm imm => Sys2Proof.Machine.execOraImm imm s
  | .aslImp => Sys2Proof.Machine.execAslImp s
  | .anc0B imm => Sys2Proof.Machine.execAnc0B imm s
  | .unop0C addr => Sys2Proof.Machine.execUnop0C addr s
  | .oraAbs addr => Sys2Proof.Machine.execOraAbs addr s
  | .aslAbs addr => Sys2Proof.Machine.execAslAbs addr s
  | .sloAbs addr => Sys2Proof.Machine.execSloAbs addr s
  | .bpl off => Sys2Proof.Machine.execBpl off s
  | .oraIzy z => Sys2Proof.Machine.execOraIzy z s
  | .jam12 => Sys2Proof.Machine.execJam12 s
  | .sloIzy z => Sys2Proof.Machine.execSloIzy z s
  | .unop14 z => Sys2Proof.Machine.execUnop14 z s
  | .oraZpx z => Sys2Proof.Machine.execOraZpx z s
  | .aslZpx z => Sys2Proof.Machine.execAslZpx z s
  | .sloZpx z => Sys2Proof.Machine.execSloZpx z s
  | .clc => Sys2Proof.Machine.execClc s
  | .oraAby base => Sys2Proof.Machine.execOraAby base s
  | .unop1A => Sys2Proof.Machine.execUnop1A s
  | .sloAby base => Sys2Proof.Machine.execSloAby base s
  | .unop1C base => Sys2Proof.Machine.execUnop1C base s
  | .oraAbx base => Sys2Proof.Machine.execOraAbx base s
  | .aslAbx base => Sys2Proof.Machine.execAslAbx base s
  | .sloAbx base => Sys2Proof.Machine.execSloAbx base s
  | .jsr addr => Sys2Proof.Machine.execJsr addr s
  | .andIzx z => Sys2Proof.Machine.execAndIzx z s
  | .jam22 => Sys2Proof.Machine.execJam22 s
  | .rlaIzx z => Sys2Proof.Machine.execRlaIzx z s
  | .bitZp0 z => Sys2Proof.Machine.execBitZp0 z s
  | .andZp0 z => Sys2Proof.Machine.execAndZp0 z s
  | .rolZp0 z => Sys2Proof.Machine.execRolZp0 z s
  | .rlaZp0 z => Sys2Proof.Machine.execRlaZp0 z s
  | .plp => Sys2Proof.Machine.execPlp s
  | .andImm imm => Sys2Proof.Machine.execAndImm imm s
  | .rolImp => Sys2Proof.Machine.execRolImp s
  | .anc2B imm => Sys2Proof.Machine.execAnc2B imm s
  | .bitAbs addr => Sys2Proof.Machine.execBitAbs addr s
  | .andAbs addr => Sys2Proof.Machine.execAndAbs addr s
  | .rolAbs addr => Sys2Proof.Machine.execRolAbs addr s
  | .rlaAbs addr => Sys2Proof.Machine.execRlaAbs addr s
  | .bmi off => Sys2Proof.Machine.execBmi off s
  | .andIzy z => Sys2Proof.Machine.execAndIzy z s
  | .jam32 => Sys2Proof.Machine.execJam32 s
  | .rlaIzy z => Sys2Proof.Machine.execRlaIzy z s
  | .unop34 z => Sys2Proof.Machine.execUnop34 z s
  | .andZpx z => Sys2Proof.Machine.execAndZpx z s
  | .rolZpx z => Sys2Proof.Machine.execRolZpx z s
  | .rlaZpx z => Sys2Proof.Machine.execRlaZpx z s
  | .sec => Sys2Proof.Machine.execSec s
  | .andAby base => Sys2Proof.Machine.execAndAby base s
  | .unop3A => Sys2Proof.Machine.execUnop3A s
  | .rlaAby base => Sys2Proof.Machine.execRlaAby base s
  | .unop3C base => Sys2Proof.Machine.execUnop3C base s
  | .andAbx base => Sys2Proof.Machine.execAndAbx base s
  | .rolAbx base => Sys2Proof.Machine.execRolAbx base s
  | .rlaAbx base => Sys2Proof.Machine.execRlaAbx base s
  | .rti => Sys2Proof.Machine.execRti s
  | .eorIzx z => Sys2Proof.Machine.execEorIzx z s
  | .jam42 => Sys2Proof.Machine.execJam42 s
  | .sreIzx z => Sys2Proof.Machine.execSreIzx z s
  | .unop44 z => Sys2Proof.Machine.execUnop44 z s
  | .eorZp0 z => Sys2Proof.Machine.execEorZp0 z s
  | .lsrZp0 z => Sys2Proof.Machine.execLsrZp0 z s
  | .sreZp0 z => Sys2Proof.Machine.execSreZp0 z s
  | .pha => Sys2Proof.Machine.execPha s
  | .eorImm imm => Sys2Proof.Machine.execEorImm imm s
  | .lsrImp => Sys2Proof.Machine.execLsrImp s
  | .alr imm => Sys2Proof.Machine.execAlr imm s
  | .jmpAbs addr => Sys2Proof.Machine.execJmpAbs addr s
  | .eorAbs addr => Sys2Proof.Machine.execEorAbs addr s
  | .lsrAbs addr => Sys2Proof.Machine.execLsrAbs addr s
  | .sreAbs addr => Sys2Proof.Machine.execSreAbs addr s
  | .bvc off => Sys2Proof.Machine.execBvc off s
  | .eorIzy z => Sys2Proof.Machine.execEorIzy z s
  | .jam52 => Sys2Proof.Machine.execJam52 s
  | .sreIzy z => Sys2Proof.Machine.execSreIzy z s
  | .unop54 z => Sys2Proof.Machine.execUnop54 z s
  | .eorZpx z => Sys2Proof.Machine.execEorZpx z s
  | .lsrZpx z => Sys2Proof.Machine.execLsrZpx z s
  | .sreZpx z => Sys2Proof.Machine.execSreZpx z s
  | .cli => Sys2Proof.Machine.execCli s
  | .eorAby base => Sys2Proof.Machine.execEorAby base s
  | .unop5A => Sys2Proof.Machine.execUnop5A s
  | .sreAby base => Sys2Proof.Machine.execSreAby base s
  | .unop5C base => Sys2Proof.Machine.execUnop5C base s
  | .eorAbx base => Sys2Proof.Machine.execEorAbx base s
  | .lsrAbx base => Sys2Proof.Machine.execLsrAbx base s
  | .sreAbx base => Sys2Proof.Machine.execSreAbx base s
  | .rts => Sys2Proof.Machine.execRts s
  | .adcIzx z => Sys2Proof.Machine.execAdcIzx z s
  | .jam62 => Sys2Proof.Machine.execJam62 s
  | .rraIzx z => Sys2Proof.Machine.execRraIzx z s
  | .unop64 z => Sys2Proof.Machine.execUnop64 z s
  | .adcZp0 z => Sys2Proof.Machine.execAdcZp0 z s
  | .rorZp0 z => Sys2Proof.Machine.execRorZp0 z s
  | .rraZp0 z => Sys2Proof.Machine.execRraZp0 z s
  | .pla => Sys2Proof.Machine.execPla s
  | .adcImm imm => Sys2Proof.Machine.execAdcImm imm s
  | .rorImp => Sys2Proof.Machine.execRorImp s
  | .arr imm => Sys2Proof.Machine.execArr imm s
  | .jmpInd ptr => Sys2Proof.Machine.execJmpInd ptr s
  | .adcAbs addr => Sys2Proof.Machine.execAdcAbs addr s
  | .rorAbs addr => Sys2Proof.Machine.execRorAbs addr s
  | .rraAbs addr => Sys2Proof.Machine.execRraAbs addr s
  | .bvs off => Sys2Proof.Machine.execBvs off s
  | .adcIzy z => Sys2Proof.Machine.execAdcIzy z s
  | .jam72 => Sys2Proof.Machine.execJam72 s
  | .rraIzy z => Sys2Proof.Machine.execRraIzy z s
  | .unop74 z => Sys2Proof.Machine.execUnop74 z s
  | .adcZpx z => Sys2Proof.Machine.execAdcZpx z s
  | .rorZpx z => Sys2Proof.Machine.execRorZpx z s
  | .rraZpx z => Sys2Proof.Machine.execRraZpx z s
  | .sei => Sys2Proof.Machine.execSei s
  | .adcAby base => Sys2Proof.Machine.execAdcAby base s
  | .unop7A => Sys2Proof.Machine.execUnop7A s
  | .rraAby base => Sys2Proof.Machine.execRraAby base s
  | .unop7C base => Sys2Proof.Machine.execUnop7C base s
  | .adcAbx base => Sys2Proof.Machine.execAdcAbx base s
  | .rorAbx base => Sys2Proof.Machine.execRorAbx base s
  | .rraAbx base => Sys2Proof.Machine.execRraAbx base s
  | .unop80 imm => Sys2Proof.Machine.execUnop80 imm s
  | .staIzx z => Sys2Proof.Machine.execStaIzx z s
  | .unop82 imm => Sys2Proof.Machine.execUnop82 imm s
  | .saxIzx z => Sys2Proof.Machine.execSaxIzx z s
  | .styZp0 z => Sys2Proof.Machine.execStyZp0 z s
  | .staZp0 z => Sys2Proof.Machine.execStaZp0 z s
  | .stxZp0 z => Sys2Proof.Machine.execStxZp0 z s
  | .saxZp0 z => Sys2Proof.Machine.execSaxZp0 z s
  | .dey => Sys2Proof.Machine.execDey s
  | .unop89 imm => Sys2Proof.Machine.execUnop89 imm s
  | .txa => Sys2Proof.Machine.execTxa s
  | .ane imm => Sys2Proof.Machine.execAne imm s
  | .styAbs addr => Sys2Proof.Machine.execStyAbs addr s
  | .staAbs addr => Sys2Proof.Machine.execStaAbs addr s
  | .stxAbs addr => Sys2Proof.Machine.execStxAbs addr s
  | .saxAbs addr => Sys2Proof.Machine.execSaxAbs addr s
  | .bcc off => Sys2Proof.Machine.execBcc off s
  | .staIzy z => Sys2Proof.Machine.execStaIzy z s
  | .jam92 => Sys2Proof.Machine.execJam92 s
  | .shaIzy z => Sys2Proof.Machine.execShaIzy z s
  | .styZpx z => Sys2Proof.Machine.execStyZpx z s
  | .staZpx z => Sys2Proof.Machine.execStaZpx z s
  | .stxZpy z => Sys2Proof.Machine.execStxZpy z s
  | .saxZpy z => Sys2Proof.Machine.execSaxZpy z s
  | .tya => Sys2Proof.Machine.execTya s
  | .staAby base => Sys2Proof.Machine.execStaAby base s
  | .txs => Sys2Proof.Machine.execTxs s
  | .tas base => Sys2Proof.Machine.execTas base s
  | .shy base => Sys2Proof.Machine.execShy base s
  | .staAbx base => Sys2Proof.Machine.execStaAbx base s
  | .shx base => Sys2Proof.Machine.execShx base s
  | .shaAby base => Sys2Proof.Machine.execShaAby base s
  | .ldyImm imm => Sys2Proof.Machine.execLdyImm imm s
  | .ldaIzx z => Sys2Proof.Machine.execLdaIzx z s
  | .ldxImm imm => Sys2Proof.Machine.execLdxImm imm s
  | .laxIzx z => Sys2Proof.Machine.execLaxIzx z s
  | .ldyZp0 z => Sys2Proof.Machine.execLdyZp0 z s
  | .ldaZp0 z => Sys2Proof.Machine.execLdaZp0 z s
  | .ldxZp0 z => Sys2Proof.Machine.execLdxZp0 z s
  | .laxZp0 z => Sys2Proof.Machine.execLaxZp0 z s
  | .tay => Sys2Proof.Machine.execTay s
  | .ldaImm imm => Sys2Proof.Machine.execLdaImm imm s
  | .tax => Sys2Proof.Machine.execTax s
  | .lxa imm => Sys2Proof.Machine.execLxa imm s
  | .ldyAbs addr => Sys2Proof.Machine.execLdyAbs addr s
  | .ldaAbs addr => Sys2Proof.Machine.execLdaAbs addr s
  | .ldxAbs addr => Sys2Proof.Machine.execLdxAbs addr s
  | .laxAbs addr => Sys2Proof.Machine.execLaxAbs addr s
  | .bcs off => Sys2Proof.Machine.execBcs off s
  | .ldaIzy z => Sys2Proof.Machine.execLdaIzy z s
  | .jamB2 => Sys2Proof.Machine.execJamB2 s
  | .laxIzy z => Sys2Proof.Machine.execLaxIzy z s
  | .ldyZpx z => Sys2Proof.Machine.execLdyZpx z s
  | .ldaZpx z => Sys2Proof.Machine.execLdaZpx z s
  | .ldxZpy z => Sys2Proof.Machine.execLdxZpy z s
  | .laxZpy z => Sys2Proof.Machine.execLaxZpy z s
  | .clv => Sys2Proof.Machine.execClv s
  | .ldaAby base => Sys2Proof.Machine.execLdaAby base s
  | .tsx => Sys2Proof.Machine.execTsx s
  | .las base => Sys2Proof.Machine.execLas base s
  | .ldyAbx base => Sys2Proof.Machine.execLdyAbx base s
  | .ldaAbx base => Sys2Proof.Machine.execLdaAbx base s
  | .ldxAby base => Sys2Proof.Machine.execLdxAby base s
  | .laxAby base => Sys2Proof.Machine.execLaxAby base s
  | .cpyImm imm => Sys2Proof.Machine.execCpyImm imm s
  | .cmpIzx z => Sys2Proof.Machine.execCmpIzx z s
  | .unopC2 imm => Sys2Proof.Machine.execUnopC2 imm s
  | .dcpIzx z => Sys2Proof.Machine.execDcpIzx z s
  | .cpyZp0 z => Sys2Proof.Machine.execCpyZp0 z s
  | .cmpZp0 z => Sys2Proof.Machine.execCmpZp0 z s
  | .decZp0 z => Sys2Proof.Machine.execDecZp0 z s
  | .dcpZp0 z => Sys2Proof.Machine.execDcpZp0 z s
  | .iny => Sys2Proof.Machine.execIny s
  | .cmpImm imm => Sys2Proof.Machine.execCmpImm imm s
  | .dex => Sys2Proof.Machine.execDex s
  | .sbx imm => Sys2Proof.Machine.execSbx imm s
  | .cpyAbs addr => Sys2Proof.Machine.execCpyAbs addr s
  | .cmpAbs addr => Sys2Proof.Machine.execCmpAbs addr s
  | .decAbs addr => Sys2Proof.Machine.execDecAbs addr s
  | .dcpAbs addr => Sys2Proof.Machine.execDcpAbs addr s
  | .bne off => Sys2Proof.Machine.execBne off s
  | .cmpIzy z => Sys2Proof.Machine.execCmpIzy z s
  | .jamD2 => Sys2Proof.Machine.execJamD2 s
  | .dcpIzy z => Sys2Proof.Machine.execDcpIzy z s
  | .unopD4 z => Sys2Proof.Machine.execUnopD4 z s
  | .cmpZpx z => Sys2Proof.Machine.execCmpZpx z s
  | .decZpx z => Sys2Proof.Machine.execDecZpx z s
  | .dcpZpx z => Sys2Proof.Machine.execDcpZpx z s
  | .cld => Sys2Proof.Machine.execCld s
  | .cmpAby base => Sys2Proof.Machine.execCmpAby base s
  | .unopDA => Sys2Proof.Machine.execUnopDA s
  | .dcpAby base => Sys2Proof.Machine.execDcpAby base s
  | .unopDC base => Sys2Proof.Machine.execUnopDC base s
  | .cmpAbx base => Sys2Proof.Machine.execCmpAbx base s
  | .decAbx base => Sys2Proof.Machine.execDecAbx base s
  | .dcpAbx base => Sys2Proof.Machine.execDcpAbx base s
  | .cpxImm imm => Sys2Proof.Machine.execCpxImm imm s
  | .sbcIzx z => Sys2Proof.Machine.execSbcIzx z s
  | .unopE2 imm => Sys2Proof.Machine.execUnopE2 imm s
  | .iscIzx z => Sys2Proof.Machine.execIscIzx z s
  | .cpxZp0 z => Sys2Proof.Machine.execCpxZp0 z s
  | .sbcZp0 z => Sys2Proof.Machine.execSbcZp0 z s
  | .incZp0 z => Sys2Proof.Machine.execIncZp0 z s
  | .iscZp0 z => Sys2Proof.Machine.execIscZp0 z s
  | .inx => Sys2Proof.Machine.execInx s
  | .sbcImm imm => Sys2Proof.Machine.execSbcImm imm s
  | .nop => Sys2Proof.Machine.execNop s
  | .usbc imm => Sys2Proof.Machine.execUsbc imm s
  | .cpxAbs addr => Sys2Proof.Machine.execCpxAbs addr s
  | .sbcAbs addr => Sys2Proof.Machine.execSbcAbs addr s
  | .incAbs addr => Sys2Proof.Machine.execIncAbs addr s
  | .iscAbs addr => Sys2Proof.Machine.execIscAbs addr s
  | .beq off => Sys2Proof.Machine.execBeq off s
  | .sbcIzy z => Sys2Proof.Machine.execSbcIzy z s
  | .jamF2 => Sys2Proof.Machine.execJamF2 s
  | .iscIzy z => Sys2Proof.Machine.execIscIzy z s
  | .unopF4 z => Sys2Proof.Machine.execUnopF4 z s
  | .sbcZpx z => Sys2Proof.Machine.execSbcZpx z s
  | .incZpx z => Sys2Proof.Machine.execIncZpx z s
  | .iscZpx z => Sys2Proof.Machine.execIscZpx z s
  | .sed => Sys2Proof.Machine.execSed s
  | .sbcAby base => Sys2Proof.Machine.execSbcAby base s
  | .unopFA => Sys2Proof.Machine.execUnopFA s
  | .iscAby base => Sys2Proof.Machine.execIscAby base s
  | .unopFC base => Sys2Proof.Machine.execUnopFC base s
  | .sbcAbx base => Sys2Proof.Machine.execSbcAbx base s
  | .incAbx base => Sys2Proof.Machine.execIncAbx base s
  | .iscAbx base => Sys2Proof.Machine.execIscAbx base s

end Sys2Proof.Machine
end

