-- ==== Sys2Proof/Machine/Tick.lean ====
section
/-! DEFINITION. One tick of the core (20_memory.md rule R76): the CPU's tick state machine (60_exceptions.md rules R280 to
R302) with the fetch of an instruction, the PPU's tick and the APU's tick; and where withFetchWord puts an instruction. -/

namespace Sys2Proof.Machine

/-! ## Fetch and boundary -/

/-- Read the byte at PC and advance PC (R25). -/
def fetchByte (s : State) : Byte × State :=
  let (b, s) := busRead s.cpu.pc s
  (b, s.setPC (s.cpu.pc + 1))

/-- Read an opcode and its operand bytes in address order (R115, R121). BRK's padding byte is not read (R254). -/
def fetchInstr (s : State) : Instr × State :=
  let (op, s) := fetchByte s
  match opcodeRow op with
  | .implied i => (i, s)
  | .padded i => (i, s)
  | .byte f => let (b, s) := fetchByte s; (f b, s)
  | .word f =>
    let (lo, s) := fetchByte s
    let (hi, s) := fetchByte s
    (f (mkWord hi lo), s)

/-- Fetch (R283): the whole instruction executes at this CPU tick. -/
def fetch (s : State) : Outcome :=
  let (i, s) := fetchInstr s
  exec i s

/-- `P.U <- 1` (R27, R290). -/
def State.forceU (s : State) : State := s.setP (setU true s.cpu.p)

/-- The IRQ mask of a boundary: the old I of a latency window, else P.I (R293). -/
def State.irqMask (s : State) : Bool := s.cpu.iWindow.getD (flagI s.cpu.p)

/-- The entry of a pending NMI (R290, R300, R301). -/
def enterNmi (s : State) : State :=
  let s := { s with cpu := { s.cpu with nmiPending := false } }
  (takeException vectorNmi false s).setCycles s.cfg.intCyclesNmi

/-- The entry of an IRQ (R290, R300, R301). -/
def enterIrq (s : State) : State := (takeException vectorIrq false s).setCycles s.cfg.intCyclesIrq

/-- The boundary decision (R290): NMI, else an unmasked IRQ, else the next instruction. -/
def boundary (s : State) : Outcome :=
  let mask := s.irqMask
  let s := s.setIWindow none
  mapNext State.forceU
    (if s.cpu.nmiPending then .next (enterNmi s)
    else if s.irqLine && !mask then .next (enterIrq s)
    else fetch s)

/-! ## The CPU tick -/

/-- The read of an OAM DMA step, on an even CPU tick (R286). -/
def dmaRead (s : State) : State :=
  let (b, s) := busRead (mkWord s.cpu.dmaPage s.cpu.dmaIndex) s
  { s with cpu := { s.cpu with dmaData := b } }

/-- The index and the end of the transfer after the write of an OAM DMA step (R286). -/
def Cpu.dmaAdvance (c : Cpu) : Cpu :=
  let index := c.dmaIndex + 1
  if index = 0 then { c with dmaIndex := index, dmaActive := false, dmaWait := true } else { c with dmaIndex := index }

/-- The write of an OAM DMA step, on an odd CPU tick (R286, R287). -/
def dmaWrite (s : State) : State :=
  { s with
    ppu := s.ppu.oamDmaWrite s.cfg.dmaOamTarget s.cpu.dmaIndex s.cpu.dmaData
    cpu := s.cpu.dmaAdvance }

/-- One OAM DMA step (R286): alignment, then a read on even CPU ticks and a write to OAM on odd ones. -/
def dmaStep (s : State) : State :=
  if s.cpu.dmaWait then
    if s.sysclk % 6 = 3 then { s with cpu := { s.cpu with dmaWait := false } } else s
  else if s.sysclk % 6 = 0 then dmaRead s
  else dmaWrite s

/-- `dmc_stall` after one more tick of the stall (R289). -/
def Cpu.nextStall (c : Cpu) : Nat := (if c.dmcStall = 0 then 4 else c.dmcStall) - 1

/-- The borrowed read of the DMC and its delivery (R289, R465). -/
def dmcDeliver (s : State) : State :=
  let (v, s) := busRead s.cpu.dmcFetchAddr s
  { s with apu := { s.apu with dmc := s.apu.dmc.fill v }, cpu := { s.cpu with dmcFetchPending := false } }

/-- One DMC fetch step (R289): the read is made on the fourth tick of the stall. -/
def dmcFetchStep (s : State) : State :=
  let t := { s with cpu := { s.cpu with dmcStall := s.cpu.nextStall } }
  if s.cpu.nextStall = 0 then dmcDeliver t else t

/-- Step 4 of R282; a count of 0 stays 0 (log entry 10). -/
def countDown (s : State) : State := s.setCycles (s.cpu.cycles - 1)

/-- One CPU tick (R282). -/
def cpuTick (s : State) : Outcome :=
  if s.cpu.dmaActive then .next (dmaStep s)
  else if s.cpu.dmcFetchPending then .next (dmcFetchStep s)
  else if s.cpu.cycles = 0 then mapNext countDown (boundary s)
  else .next (countDown s)

/-- `cpu.clock()` (R281). -/
def cpuClock (s : State) : Outcome := if s.sysclk % 3 = 0 then cpuTick s else .next s

/-! ## The devices' ticks -/

/-- `ppu.clock()` (R370). -/
def ppuClock (s : State) : State := s.applyPpu (ppuTick s.cfg s.cart s.ppu)

/-- `DmcReaderCheck()` (R464, R288). -/
def dmcReaderCheck (s : State) : State :=
  if s.apu.dmc.wantsFetch s.cpu.dmcFetchPending then
    { s with cpu := { s.cpu with dmcFetchPending := true, dmcFetchAddr := s.apu.dmc.curAddr } }
  else s

/-- `apu.clock()` (R430). -/
def apuClock (s : State) : State :=
  if s.sysclk % 3 = 0 then dmcReaderCheck { s with apu := s.apu.tick s.cfg } else s

/-- What follows the CPU in a tick: PPU, controller (no action), APU, then the counter (R76). -/
def devicesTick (s : State) : State :=
  let s := apuClock (ppuClock s)
  { s with sysclk := s.sysclk + 1 }

/-- `Bus.Clock()` (R76); the cartridge's and the controller's clocks do nothing. -/
def masterTick (s : State) : Outcome := mapNext devicesTick (cpuClock s)

/-! ## Placing an instruction for the next fetch -/

/-- The storage a CPU address reads from without side effects: RAM, PRG-RAM or PRG-ROM. -/
def fetchCell (s : State) (a : Word) : Option MemCell :=
  match s.cart.bind (·.cpuMapRead a) with
  | some (.ram off) => some (.prgRam off)
  | some (.rom off) => some (.prgRom off)
  | none => if a < 0x2000 then some (.ram (ramIndex a)) else none

/-- Put a byte into a memory cell that holds code, from outside the machine. -/
def State.pokeCell (s : State) (v : Byte) : MemCell → State
  | .ram i => { s with ram := Store.write s.ram i v }
  | .prgRam i => { s with cart := s.cart.map (fun c => { c with prgRam := Store.write c.prgRam i v }) }
  | .prgRom i => { s with cart := s.cart.map (fun c => { c with prgRom := Store.write c.prgRom i v }) }
  | .chr _ | .patternRam _ | .nametable _ | .palette _ | .oam _ => s

/-- Put bytes into the storage behind consecutive CPU addresses. -/
def placeBytes : List Byte → Word → State → State
  | [], _, s => s
  | v :: vs, a, s =>
    placeBytes vs (a + 1) (match fetchCell s a with | some c => s.pokeCell v c | none => s)

/-- Whether the three bytes from an address on are in distinct cells of storage. -/
def fetchable (s : State) (a : Word) : Bool :=
  match fetchCell s a, fetchCell s (a + 1), fetchCell s (a + 2) with
  | some c, some d, some e => c != d && d != e && c != e
  | _, _, _ => false

/-- The state whose next step fetches the bytes (log entry 19): they stand in the storage behind PC (at $0000 where PC is
not in storage), the CPU is at a boundary of a CPU tick, and no DMA, DMC fetch, NMI or unmasked IRQ comes first. -/
def placeInstruction (bytes : List Byte) (s : State) : State :=
  let pc := if fetchable s s.cpu.pc then s.cpu.pc else 0x0000
  let s := { s with
    sysclk := s.sysclk - s.sysclk % 3
    cpu := { s.cpu with
      pc := pc, cycles := 0, dmaActive := false, dmcFetchPending := false, nmiPending := false
      iWindow := if s.irqLine && !s.irqMask then some true else s.cpu.iWindow } }
  placeBytes bytes pc s

end Sys2Proof.Machine
end

