-- ==== Sys2Proof/Machine/Step.lean ====
section
/-! DEFINITION. The step of the machine: one tick of the master clock (00_scope.md rule R16), and the state whose next step
fetches a given instruction. -/

namespace Sys2Proof.Machine

/-- One step is one call of `Bus.Clock()` (R16, R76; log entry 6). -/
def step (s : State) : Host.Outcome State Fault Refusal := masterTick s

/-- `s` with the instruction whose bits are `w` stored where step fetches next, the bits above `nbits` zero (log
entry 19). -/
def State.withFetchWord (s : State) (nbits w : Nat) : State := placeInstruction (tableBytes 3 (w % 2 ^ nbits)) s

end Sys2Proof.Machine
end

