-- ==== Sys2Proof/Machine/HostOps.lean ====
section
/-! DEFINITION. What the host does between ticks (60_exceptions.md rule R335): insert a cartridge (R490 to R493), reset
(R560) and power on (R561), set the buttons (R330), take a frame (R336) and a sample (R479). No step calls these
(log entry 18). -/

namespace Sys2Proof.Machine

/-- `Bus.Reset()` (R560): the cartridge first, then the CPU reads its vector through the bus, then PPU, controller and
APU, then the bus's own state. RAM, PRG-RAM, CHR RAM, OAM, palette, framebuffer and buttons keep their contents. -/
def busReset (s : State) : State :=
  let s := { s with cart := s.cart.map Cartridge.reset }
  let (vector, s) := readWord vectorReset s
  { s with
    cpu := .reset vector
    ppu := .reset s.ppu.palette s.ppu.oam s.ppu.framebuffer
    ctrl := .reset s.ctrl.buttons0 s.ctrl.buttons1
    apu := .reset
    sysclk := 0
    busConflicts := 0 }

/-- `InsertCartridge(image)` (R490 to R493) with the PRG-RAM contents `CART_RAM_INIT`; a bad image changes nothing. -/
def insertCartridge (image cartRamInit : List Byte) (s : State) : Except LoadError State :=
  match parseImage image cartRamInit with
  | .ok c => .ok { s with cart := some c }
  | .error e => .error e

/-- Power-on (R561): memories from `RAM_INIT`, `VRAM_INIT` and `PALETTE_INIT`, framebuffer and buttons 0, then reset. -/
def powerOn (cfg : Config) (cart : Option Cartridge) (ramInit vramInit paletteInit : List Byte) : State :=
  busReset { State.reset with
    cfg := cfg
    cart := cart
    ram := Store.ofListFrom 0 (ramInit.take 2048)
    ppu := .reset (Store.ofListFrom 0 (paletteInit.take 32)) (Store.ofListFrom 0 (vramInit.take 256)) [] }

/-- `SetButtons(i, mask)` (R330): pad 0 or pad 1. -/
def setButtons (pad : Bool) (mask : Byte) (s : State) : State :=
  if pad then { s with ctrl := { s.ctrl with buttons1 := mask } } else { s with ctrl := { s.ctrl with buttons0 := mask } }

/-- The host clears `frame_complete` after reading the framebuffer (R336). -/
def clearFrameComplete (s : State) : State := { s with ppu := { s.ppu with frameComplete := false } }

/-- The 6-bit colour index of a pixel (R394). -/
def pixel (s : State) (row col : Nat) : BitVec 6 := Store.read s.ppu.framebuffer (256 * row + col)

/-- The colour of a pixel through `COLOR_TABLE` (R395). -/
def pixelColour (s : State) (row col : Nat) : Rgb := Config.colorTable (pixel s row col)

/-- `sample_out`: `MIX` of the five outputs of the last APU tick (R430, R478, R479). -/
def sampleOut (s : State) : Sample :=
  Config.mix s.apu.mixed.pulse1 s.apu.mixed.pulse2 s.apu.mixed.triangle s.apu.mixed.noise s.apu.mixed.dmc

end Sys2Proof.Machine
end

