-- ==== Sys2Proof/Safety.lean ====
section
/-! DEFINITION. What claims are stated in: the invariants of the machine (which states a run can reach), what counts as a
safe run, and the words of frames. -/

namespace Sys2Proof.Machine

/-! ## Invariants -/

/-- P's stored B is 0 and U is 1 (R27, R28). -/
abbrev State.StatusOk (s : State) : Prop := flagB s.cpu.p = false ∧ flagU s.cpu.p = true

/-- The PPU's memories are in canonical form and inside their sizes (R350, R352, R360). -/
abbrev Ppu.MemoryOk (p : Ppu) : Prop :=
  (Store.wf p.palette ∧ Store.within 32 p.palette) ∧ (Store.wf p.nametable ∧ Store.within 2048 p.nametable) ∧
    (Store.wf p.oam ∧ Store.within 256 p.oam) ∧ (Store.wf p.patternRam ∧ Store.within 8192 p.patternRam) ∧
    (Store.wf p.framebuffer ∧ Store.within 61440 p.framebuffer)

/-- The size of the CHR array (R491). -/
def Cartridge.chrSize (c : Cartridge) : Nat := if c.chrIsRam then 8192 else c.nChr * 8192

/-- The cartridge's memories are in canonical form and inside their sizes (R491, R494, R497). -/
abbrev Cartridge.MemoryOk (c : Cartridge) : Prop :=
  (Store.wf c.prgRam ∧ Store.within 8192 c.prgRam) ∧ (Store.wf c.prgRom ∧ Store.within (c.nPrg * 16384) c.prgRom) ∧
    (Store.wf c.chr ∧ Store.within c.chrSize c.chr)

/-- Every memory of the core is in canonical form and inside its size (R42, R60). -/
abbrev State.MemoryOk (s : State) : Prop :=
  (Store.wf s.ram ∧ Store.within 2048 s.ram) ∧ s.ppu.MemoryOk ∧ ∀ c ∈ s.cart, c.MemoryOk

/-- The PPU's position and sprite list stay in their ranges (R371, R381). -/
abbrev Ppu.RangesOk (p : Ppu) : Prop :=
  (-1 ≤ p.scanline ∧ p.scanline ≤ 260 ∧ p.cycle ≤ 340) ∧ p.sprites.length = 8 ∧ p.sprCount ≤ 8

/-- The APU's counters stay in their ranges (R315, R431, R441, R460), and the noise register never becomes 0 (R457). -/
abbrev Apu.RangesOk (u : Apu) : Prop :=
  (u.pulse1.div ≤ 4095 ∧ u.pulse2.div ≤ 4095 ∧ u.triangle.div ≤ 2047 ∧ u.noise.div ≤ 4067 ∧ u.dmc.div ≤ 427) ∧
    u.noise.lfsr ≠ 0 ∧ (1 ≤ u.dmc.bitsLeft ∧ u.dmc.bitsLeft ≤ 8) ∧ u.fsCount < frameLength u.fsMode

/-- The CPU's hidden counters stay in their ranges (R35, R39): a DMC stall only stands for a pending fetch, an OAM DMA that
is not active is at its start. -/
abbrev Cpu.RangesOk (cfg : Config) (c : Cpu) : Prop :=
  c.cycles ≤ max 8 (max cfg.intCyclesNmi cfg.intCyclesIrq) ∧ c.dmcStall ≤ 3 ∧
    (c.dmcStall ≠ 0 → c.dmcFetchPending = true) ∧ (c.dmaActive = false → c.dmaWait = true ∧ c.dmaIndex = 0)

/-- The mapper's registers stay in their ranges (R510, R530). -/
def Mapper.rangesOk : Mapper → Bool
  | .m001 r => r.srCount ≤ 4
  | .m004 r => r.banks.length == 8
  | .m000 | .m002 _ | .m003 _ => true

/-- Every counter and list of the core is in its range. -/
abbrev State.RangesOk (s : State) : Prop :=
  s.cpu.RangesOk s.cfg ∧ s.ppu.RangesOk ∧ s.apu.RangesOk ∧ ∀ c ∈ s.cart, c.mapper.rangesOk = true

/-! ## Safe runs -/

/-- `n` steps go on to a state: no fault, no refusal. -/
def RunsTo (n : Nat) (s t : State) : Prop := Host.Core.run Sys2Proof.core n s = .next t

/-- A safe run of `n` steps: the machine goes on through every one of them. -/
def SafeRun (n : Nat) (s : State) : Prop := ∃ t, RunsTo n s t

/-! ## The words of frames -/

/-- No memory cell of the core differs (R60). -/
def SameMemory (s t : State) : Prop := ∀ c, t.cell c = s.cell c

/-- Every memory cell but the named one is as before; the named one, if any, holds `v`. -/
def StoredAt (target : Option MemCell) (v : Byte) (s t : State) : Prop :=
  ∀ c, t.cell c = if target = some c then v else s.cell c

/-- The flags of P outside `mask` are as before (R34). -/
def SameFlagsBut (mask p q : Byte) : Prop := ∀ i, i < 8 → bit mask i = false → bit q i = bit p i

/-- The registers and the latency window are as before; P, the cycle count and the DMA state may differ. -/
def SameRegisters (c d : Cpu) : Prop :=
  d.a = c.a ∧ d.x = c.x ∧ d.y = c.y ∧ d.sp = c.sp ∧ d.pc = c.pc ∧ d.iWindow = c.iWindow

/-- N and Z are those of a result (R30). -/
def FlagsNZ (r p : Byte) : Prop := (flagN p = true ↔ 128 ≤ r.toNat) ∧ (flagZ p = true ↔ r = 0)

/-- The cell of the stack page that a stack pointer names (R24, R68). -/
def stackCell (sp : Byte) : MemCell := .ram (256 + sp.toNat)

/-! ## The words of instructions -/

/-- A form with a memory operand: its opcode byte, the instruction, its base cycles (R118), and what its addressing mode
yields. -/
structure Form where
  op : Byte
  i : Instr
  n : Nat
  l : Located

/-- A form that reads its operand: its opcode byte, the instruction, its cycles (R117), the operand M, and the state after
M was read. -/
structure ReadForm where
  op : Byte
  i : Instr
  cycles : Nat
  m : Byte
  after : State

/-- An immediate form: M is the operand byte, which the fetch has read (R103). -/
def ReadForm.imm (op : Byte) (i : Instr) (imm : Byte) (s : State) : ReadForm := ⟨op, i, 2, imm, s⟩

/-- A Read-class form: M is the byte at the effective address; one more cycle on a page cross (R115, R117). -/
def ReadForm.mem (op : Byte) (i : Instr) (n : Nat) (l : Located) : ReadForm :=
  ⟨op, i, n + l.crossed.toNat, (busRead l.ea l.st).1, (busRead l.ea l.st).2⟩

/-- A shift or an increment: what the result byte and C are, from the operand byte and C (R176, R177, R182 to R185). -/
abbrev ShiftRule := Byte → Bool → Byte → Bool → Prop

/-- The 105 unofficial instructions (R120). -/
def unofficialInstrs (imm z : Byte) (w : Word) : List Instr :=
  [.jam02, .sloIzx z, .unop04 z, .sloZp0 z, .anc0B imm, .unop0C w, .sloAbs w, .jam12, .sloIzy z, .unop14 z, .sloZpx z,
   .unop1A, .sloAby w, .unop1C w, .sloAbx w, .jam22, .rlaIzx z, .rlaZp0 z, .anc2B imm, .rlaAbs w, .jam32, .rlaIzy z,
   .unop34 z, .rlaZpx z, .unop3A, .rlaAby w, .unop3C w] ++
  [.rlaAbx w, .jam42, .sreIzx z, .unop44 z, .sreZp0 z, .alr imm, .sreAbs w, .jam52, .sreIzy z, .unop54 z, .sreZpx z,
   .unop5A, .sreAby w, .unop5C w, .sreAbx w, .jam62, .rraIzx z, .unop64 z, .rraZp0 z, .arr imm, .rraAbs w, .jam72,
   .rraIzy z, .unop74 z, .rraZpx z, .unop7A, .rraAby w] ++
  [.unop7C w, .rraAbx w, .unop80 imm, .unop82 imm, .saxIzx z, .saxZp0 z, .unop89 imm, .ane imm, .saxAbs w, .jam92,
   .shaIzy z, .saxZpy z, .tas w, .shy w, .shx w, .shaAby w, .laxIzx z, .laxZp0 z, .lxa imm, .laxAbs w, .jamB2,
   .laxIzy z, .laxZpy z, .las w, .laxAby w, .unopC2 imm, .dcpIzx z] ++
  [.dcpZp0 z, .sbx imm, .dcpAbs w, .jamD2, .dcpIzy z, .unopD4 z, .dcpZpx z, .unopDA, .dcpAby w, .unopDC w, .dcpAbx w,
   .unopE2 imm, .iscIzx z, .iscZp0 z, .usbc imm, .iscAbs w, .jamF2, .iscIzy z, .unopF4 z, .iscZpx z, .unopFA,
   .iscAby w, .unopFC w, .iscAbx w]

/-- `n` bytes read at PC in address order, PC moving past each (R25). -/
def readBytes : Nat → State → List Byte × State
  | 0, s => ([], s)
  | n + 1, s =>
    let (b, t) := busRead s.cpu.pc s
    let (bs, u) := readBytes n (t.setPC (s.cpu.pc + 1))
    (b :: bs, u)

/-! ## The words of the PPU's tick: the scroll registers as numbers (R353) -/

/-- `v` after `IncrementX` (R377): the next tile, and past the last one the other horizontal nametable. -/
def coarseXStep (v : Nat) : Nat :=
  if v % 32 = 31 then v / 2048 * 2048 + (1 - v / 1024 % 2) * 1024 + v / 32 % 32 * 32 else v + 1

/-- `v` after `IncrementY` (R377): the next row of pixels; past the tile's last the next tile row, 29 going to row 0 of the
other vertical nametable and 31 to row 0 of the same one. -/
def fineYStep (v : Nat) : Nat :=
  if v / 4096 < 7 then v + 4096
  else if v / 32 % 32 = 29 then (1 - v / 2048 % 2) * 2048 + v / 1024 % 2 * 1024 + v % 32
  else if v / 32 % 32 = 31 then v / 1024 % 4 * 1024 + v % 32
  else v % 4096 + 32

/-- `v` after `TransferX` from `t` (R378). -/
def transferXStep (v t : Nat) : Nat := v / 2048 * 2048 + t / 1024 % 2 * 1024 + v / 32 % 32 * 32 + t % 32

/-- `v` after `TransferY` from `t` (R378). -/
def transferYStep (v t : Nat) : Nat := t / 2048 * 2048 + v / 1024 % 2 * 1024 + t / 32 % 32 * 32 + v % 32

/-! ## The words of the CPU's tick -/

/-- The state is at an instruction boundary of a CPU tick (R282). -/
abbrev State.AtBoundary (s : State) : Prop :=
  s.sysclk % 3 = 0 ∧ s.cpu.dmaActive = false ∧ s.cpu.dmcFetchPending = false ∧ s.cpu.cycles = 0

/-- The boundary fetches: no NMI is pending and no unmasked IRQ is asserted (R290). -/
abbrev State.FetchesNext (s : State) : Prop :=
  s.AtBoundary ∧ s.cpu.nmiPending = false ∧ (s.irqLine && !s.irqMask) = false

/-- An exception has been entered through `vec` (R301, R254): PC and P are on the stack, bit 4 of the pushed P being
`brk`, I is set, PC is read from the vector, and nothing else changes but the cycle count. -/
def Entered (vec : Word) (brk : Bool) (s t : State) : Prop :=
  t = { s with
    ram := t.ram
    cpu := { s.cpu with sp := s.cpu.sp - 3, p := t.cpu.p, pc := t.cpu.pc, cycles := t.cpu.cycles } } ∧
  flagI t.cpu.p = true ∧ SameFlagsBut 0x04 s.cpu.p t.cpu.p ∧
  t.cpu.pc = mkWord (busRead (vec + 1) s).1 (busRead vec s).1 ∧
  t.cell (stackCell s.cpu.sp) = hi8 s.cpu.pc ∧ t.cell (stackCell (s.cpu.sp - 1)) = lo8 s.cpu.pc ∧
  (∃ b, t.cell (stackCell (s.cpu.sp - 2)) = b ∧ bit b 4 = brk ∧ bit b 5 = true ∧ SameFlagsBut 0x30 s.cpu.p b) ∧
  ∀ c, c ≠ stackCell s.cpu.sp → c ≠ stackCell (s.cpu.sp - 1) → c ≠ stackCell (s.cpu.sp - 2) → t.cell c = s.cell c

end Sys2Proof.Machine
end

