-- ==== Sys2Proof/Certificates/Slice0/Obligations.lean ====
section
/-! DEFINITION. The obligations: what is claimed of the model, each from numbered rules of the spec. A statement about
instructions runs on the state in which the opcode and its operand bytes have been read and PC is past them (R25). -/

open Sys2Proof Sys2Proof.Machine

/-! ## Encoding and fetch -/

/-- Decoding the encoding of any instruction gives it back, whatever bytes follow (R100, R118); BRK is encoded with the
padding byte 0, the model's choice (log entry 8). -/
def Obligations.DecodeEncodeRoundTrip : Prop :=
  ∀ (i : Instr) (rest : List Byte), decode (encode i ++ rest) = .ok (i, rest)

/-- Whatever decodes is the instruction's encoding, but for BRK's padding byte, which is not read (R254; that the decoder
wants one is the model's reading, log entry 8). -/
def Obligations.EncodeDecodeRoundTrip : Prop :=
  ∀ (bytes rest : List Byte) (i : Instr), decode bytes = .ok (i, rest) →
    bytes = encode i ++ rest ∨ (i = .brk ∧ ∃ pad, bytes = 0x00 :: pad :: rest)

/-- Decoding is total: every opcode byte selects one row, which fixes how many operand bytes follow; with them there is
exactly one instruction, of that opcode (R121). That a string too short or empty is rejected is the model's choice (log
entry 20), and so is that BRK's padding byte counts among its operand bytes here (log entry 8). -/
def Obligations.OpcodeAloneFixesLength : Prop :=
  (∀ op : Byte, ∃ k, k ≤ 2 ∧ ∀ rest : List Byte,
    (k ≤ rest.length → ∃ i, decode (op :: rest) = .ok (i, rest.drop k) ∧ i.opcode = op ∧ i.byteLength = 1 + k) ∧
    (rest.length < k → decode (op :: rest) = .error (.truncated op))) ∧
  decode [] = .error .empty

/-- Words written out from the encodings of the rules decode to the instructions they stand for: one of each of the twelve
addressing modes of R101, and one of each family of sections 40 to 47, the legal NOP and an unofficial row among them
(R100, R118, R122). -/
def Obligations.WrittenWordsDecode : Prop :=
  decode [0xA9, 0x05] = .ok (.ldaImm 0x05, []) ∧ decode [0x85, 0x00] = .ok (.staZp0 0x00, []) ∧
  decode [0xBD, 0xFF, 0x20] = .ok (.ldaAbx 0x20FF, []) ∧ decode [0x7D, 0x34, 0x12] = .ok (.adcAbx 0x1234, []) ∧
  decode [0xF1, 0x80] = .ok (.sbcIzy 0x80, []) ∧ decode [0xC1, 0x7F] = .ok (.cmpIzx 0x7F, []) ∧
  decode [0xD0, 0xF0] = .ok (.bne 0xF0, []) ∧ decode [0x08] = .ok (.php, []) ∧ decode [0x78] = .ok (.sei, []) ∧
  decode [0x6C, 0xFF, 0x02] = .ok (.jmpInd 0x02FF, []) ∧ decode [0x20, 0x00, 0x90] = .ok (.jsr 0x9000, []) ∧
  decode [0x96, 0x10] = .ok (.stxZpy 0x10, []) ∧ decode [0x1C, 0xFF, 0x20] = .ok (.unop1C 0x20FF, []) ∧
  decode [0x00, 0x55] = .ok (.brk, []) ∧ decode [0xB5, 0x10] = .ok (.ldaZpx 0x10, []) ∧
  decode [0xB9, 0x00, 0x03] = .ok (.ldaAby 0x0300, []) ∧ decode [0xEA] = .ok (.nop, [])

/-- A step at a boundary that fetches runs the instruction at PC: when the bytes read at PC decode to `i` (BRK's padding
byte is not read), step is `exec i` on the state after those reads, then P.U is forced to 1, one cycle is counted down,
and the devices tick (R76, R282, R283, R290); that `exec` starts after the operand bytes are read is the model's reading
(log entries 6 and 7). -/
def Obligations.StepRunsDecodedInstruction : Prop :=
  ∀ (s u : State) (i : Instr) (bytes pad : List Byte), s.FetchesNext →
    readBytes (if i = .brk then 1 else i.byteLength) (s.setIWindow none) = (bytes, u) →
    pad.length = (if i = .brk then 1 else 0) → decode (bytes ++ pad) = .ok (i, []) →
    step s = mapNext (fun t => devicesTick (countDown t.forceU)) (exec i u)

/-- Under `UNOFFICIAL_POLICY = nop` the machine never stops: every step goes on (R71, R121, R267, R298). -/
def Obligations.NoStepStopsUnderNopPolicy : Prop :=
  ∀ s : State, s.cfg.unofficialPolicy = .nop → ∃ t, step s = .next t

/-! ## The CPU's tick -/

/-- The CPU acts only on every third master tick, and in Execute it only counts down; the devices tick after it (R76,
R281, R282). -/
def Obligations.CpuWaits : Prop :=
  ∀ s : State,
    (s.sysclk % 3 ≠ 0 → step s = .next (devicesTick s)) ∧
    (s.sysclk % 3 = 0 → s.cpu.dmaActive = false → s.cpu.dmcFetchPending = false → s.cpu.cycles ≠ 0 →
      step s = .next (devicesTick { s with cpu := { s.cpu with cycles := s.cpu.cycles - 1 } }))

/-- No step changes the configuration, the controller's buttons, or what a cartridge is: its PRG-ROM, its CHR-ROM, its
bank counts, its header mirroring and its mapper's number; and every step adds one to the master clock (R76, R499,
R500). That the parameters of R10 are held as cfg in the state is the model's choice (log entry 3). -/
def Obligations.StepKeepsRomAndConfig : Prop :=
  ∀ s t : State, step s = .next t →
    t.sysclk = s.sysclk + 1 ∧ t.cfg = s.cfg ∧
    t.ctrl.buttons0 = s.ctrl.buttons0 ∧ t.ctrl.buttons1 = s.ctrl.buttons1 ∧
    match s.cart, t.cart with
    | none, none => True
    | some c, some d =>
      d.prgRom = c.prgRom ∧ d.nPrg = c.nPrg ∧ d.nChr = c.nChr ∧ d.chrIsRam = c.chrIsRam ∧
        d.headerMirroring = c.headerMirroring ∧ d.mapperId = c.mapperId ∧ (c.chrIsRam = false → d.chr = c.chr)
    | _, _ => False

/-- OAM DMA: a write to $4014 starts it; then each CPU tick aligns, reads the next byte through the bus on an even CPU
tick, or writes it to OAM on an odd one, and the 256th write ends it (R285, R286, R287). -/
def Obligations.OamDma : Prop :=
  (∀ (v : Byte) (s : State), busWrite 0x4014 v s =
    { s with cpu := { s.cpu with dmaPage := v, dmaIndex := 0, dmaActive := true, dmaWait := true } }) ∧
  ∀ s : State, s.sysclk % 3 = 0 → s.cpu.dmaActive = true →
    (s.cpu.dmaWait = true → cpuClock s = .next { s with cpu := { s.cpu with dmaWait := s.sysclk % 6 != 3 } }) ∧
    (s.cpu.dmaWait = false → s.sysclk % 6 = 0 → ∃ t, cpuClock s = .next t ∧ SameMemory s t ∧
      let r := busRead (BitVec.ofNat 16 (256 * s.cpu.dmaPage.toNat + s.cpu.dmaIndex.toNat)) s
      t = { r.2 with cpu := { s.cpu with dmaData := r.1 } }) ∧
    (s.cpu.dmaWait = false → s.sysclk % 6 = 3 → ∃ t, cpuClock s = .next t ∧
      t = { s with ppu := { s.ppu with oam := t.ppu.oam }, cpu := t.cpu } ∧
      StoredAt (some (.oam (match s.cfg.dmaOamTarget with
        | .viaOamaddr => (s.ppu.oamaddr.toNat + s.cpu.dmaIndex.toNat) % 256
        | .direct => s.cpu.dmaIndex.toNat))) s.cpu.dmaData s t ∧
      t.cpu = { s.cpu with
        dmaIndex := s.cpu.dmaIndex + 1
        dmaActive := s.cpu.dmaIndex != 255
        dmaWait := s.cpu.dmaIndex == 255 })

/-- A pending DMC fetch stalls the CPU for four CPU ticks, nothing but the stall counter changing on the first three; on
the fourth the byte is read through the bus and filled into the DMC, and the request ends (R289). -/
def Obligations.DmcFetchStallsFourTicks : Prop :=
  ∀ s : State, s.sysclk % 3 = 0 → s.cpu.dmaActive = false → s.cpu.dmcFetchPending = true →
    (s.cpu.dmcStall ≠ 1 → cpuClock s =
      .next { s with cpu := { s.cpu with dmcStall := if s.cpu.dmcStall = 0 then 3 else s.cpu.dmcStall - 1 } }) ∧
    (s.cpu.dmcStall = 1 → ∃ t, cpuClock s = .next t ∧ SameMemory s t ∧
      let r := busRead s.cpu.dmcFetchAddr s
      t = { r.2 with
        cpu := { s.cpu with dmcStall := 0, dmcFetchPending := false }
        apu := { r.2.apu with dmc := r.2.apu.dmc.fill r.1 } })

/-! ## Interrupts -/

/-- A pending NMI is taken at a boundary whatever I and the IRQ line are: the request and any latency window are cleared
and the entry takes `INT_CYCLES_NMI` ticks, this one counted (R290, R299, R300, R301; a count of 0 is the model's choice,
log entry 10). -/
def Obligations.NmiTakenFirst : Prop :=
  ∀ s : State, s.StatusOk → s.AtBoundary → s.cpu.nmiPending = true →
    ∃ t, cpuClock s = .next t ∧
      Entered 0xFFFA false { s with cpu := { s.cpu with nmiPending := false, iWindow := none } } t ∧
      t.cpu.cycles = s.cfg.intCyclesNmi - 1

/-- With no NMI pending, an asserted IRQ line is taken at a boundary exactly when the mask is clear, the mask being the
old I inside a latency window and I outside; else the next instruction is fetched (R290, R292, R293, R301; an entry of 0
cycles is the model's choice, log entry 10). -/
def Obligations.IrqTakenUnlessMasked : Prop :=
  ∀ s : State, s.StatusOk → s.AtBoundary → s.cpu.nmiPending = false →
    let mask : Bool := match s.cpu.iWindow with
      | some v => v
      | none => bit s.cpu.p 2
    (s.irqLine = true ∧ mask = false → ∃ t, cpuClock s = .next t ∧
      Entered 0xFFFE false (s.setIWindow none) t ∧ t.cpu.cycles = s.cfg.intCyclesIrq - 1) ∧
    (s.irqLine = false ∨ mask = true →
      cpuClock s = mapNext (fun t => countDown t.forceU) (fetch (s.setIWindow none)))

/-- RTI undoes an entry: run on the state an NMI, IRQ or BRK entry leaves, it restores PC, SP and P, whatever SP was; the
other registers and every memory cell outside the three pushed ones are as before the entry (R253, R301, R304). -/
def Obligations.RtiUndoesEntry : Prop :=
  ∀ (s : State) (vec : Word) (brk : Bool), s.StatusOk → 0x6000 ≤ vec → vec < 0xFFFF →
    ∃ t, exec .rti (takeException vec brk s) = .next t ∧
      t.cpu = { s.cpu with cycles := 6 } ∧
      ∀ c, c ≠ stackCell s.cpu.sp → c ≠ stackCell (s.cpu.sp - 1) → c ≠ stackCell (s.cpu.sp - 2) → t.cell c = s.cell c

/-- SEI and CLI, and PLP under `PLP_I_LATENCY`, open a latency window that holds the old I; no other instruction touches
the window (R38, R293, R296). -/
def Obligations.LatencyWindows : Prop :=
  ∀ (i : Instr) (s t : State), exec i s = .next t →
    t.cpu.iWindow =
      if i = .sei ∨ i = .cli ∨ (i = .plp ∧ s.cfg.plpILatency = true) then some (bit s.cpu.p 2) else s.cpu.iWindow

/-! ## Reset and invariants -/

/-- Reset gives the CPU the values of R43 and R44, PC from the vector at $FFFC as the reset cartridge maps it, and clears
the bus's counters; the nametables and the pattern RAM are zeroed; RAM, PRG-RAM, PRG-ROM, CHR, OAM, the palette and the
framebuffer keep their contents (R43 to R46, R350, R560). -/
def Obligations.BusResetValues : Prop :=
  ∀ s : State,
    let u : State := { s with cart := s.cart.map Cartridge.reset }
    let t := busReset s
    t.cpu.a = 0 ∧ t.cpu.x = 0 ∧ t.cpu.y = 0 ∧ t.cpu.sp = 0xFD ∧ t.cpu.p = 0x24 ∧ t.cpu.cycles = 8 ∧
    t.cpu.pc = mkWord (busRead 0xFFFD u).1 (busRead 0xFFFC u).1 ∧
    t.cpu.nmiPending = false ∧ t.cpu.iWindow = none ∧ t.cpu.dmaActive = false ∧ t.cpu.dmaWait = true ∧
    t.cpu.dmaPage = 0 ∧ t.cpu.dmaIndex = 0 ∧ t.cpu.dmaData = 0 ∧ t.cpu.dmcFetchPending = false ∧ t.cpu.dmcStall = 0 ∧
    t.sysclk = 0 ∧ t.busConflicts = 0 ∧ t.irqLine = false ∧
    t.ram = s.ram ∧ t.ppu.oam = s.ppu.oam ∧ t.ppu.palette = s.ppu.palette ∧ t.ppu.framebuffer = s.ppu.framebuffer ∧
    t.ppu.nametable = [] ∧ t.ppu.patternRam = [] ∧ t.ctrl.buttons0 = s.ctrl.buttons0 ∧ t.ctrl.buttons1 = s.ctrl.buttons1 ∧
    (∀ i, t.cell (.prgRam i) = s.cell (.prgRam i)) ∧ (∀ i, t.cell (.prgRom i) = s.cell (.prgRom i)) ∧
    (∀ i, t.cell (.chr i) = s.cell (.chr i))

/-- P's stored B stays 0 and U stays 1 through every step (R27, R28). -/
def Obligations.StatusKeptByStep : Prop := ∀ s t : State, s.StatusOk → step s = .next t → t.StatusOk

/-- Every memory stays in canonical form and inside its size through every step (R42, R60, R350, R494; the form is
the model's, log entry 1). -/
def Obligations.MemoryKeptByStep : Prop := ∀ s t : State, s.MemoryOk → step s = .next t → t.MemoryOk

/-- Every counter of the CPU, PPU, APU and mapper stays in its range through every step, and the noise register never
becomes 0 (R35, R315, R371, R431, R457, R510). -/
def Obligations.RangesKeptByStep : Prop := ∀ s t : State, s.RangesOk → step s = .next t → t.RangesOk

/-- The state after reset meets the three invariants (R562; that the reset state has no cartridge and the default
parameters is the model's choice, log entry 2). -/
def Obligations.ResetMeetsInvariants : Prop :=
  State.reset.StatusOk ∧ State.reset.MemoryOk ∧ State.reset.RangesOk

/-! ## Addressing -/

/-- The effective address and the page-cross flag of every addressing mode with a memory operand: additions of an index
wrap within page zero in ZPX, ZPY and IZX and modulo 65536 in ABX, ABY and IZY, and a zero-page pointer's second byte
wraps within page zero (R104, R105, R107, R108, R110, R111). -/
def Obligations.AddressingModes : Prop :=
  ∀ (s : State) (cls : AccessClass) (z : Byte) (w : Word),
    let x := s.cpu.x.toNat
    let y := s.cpu.y.toNat
    let ram (i : Nat) : Nat := (s.cell (.ram (i % 256))).toNat
    let p := z.toNat + x
    let base := ram z.toNat + 256 * ram (z.toNat + 1)
    ((atZp0 z s).ea.toNat = z.toNat ∧ (atZp0 z s).crossed = false) ∧
    ((atZpx z s).ea.toNat = (z.toNat + x) % 256 ∧ (atZpx z s).crossed = false) ∧
    ((atZpy z s).ea.toNat = (z.toNat + y) % 256 ∧ (atZpy z s).crossed = false) ∧
    ((atAbs w s).ea = w ∧ (atAbs w s).crossed = false) ∧
    ((atAbx cls w s).ea.toNat = (w.toNat + x) % 65536 ∧
      ((atAbx cls w s).crossed = true ↔ (atAbx cls w s).ea.toNat / 256 ≠ w.toNat / 256)) ∧
    ((atAby cls w s).ea.toNat = (w.toNat + y) % 65536 ∧
      ((atAby cls w s).crossed = true ↔ (atAby cls w s).ea.toNat / 256 ≠ w.toNat / 256)) ∧
    ((atIzx z s).ea.toNat = ram p + 256 * ram (p + 1) ∧ (atIzx z s).crossed = false) ∧
    ((atIzy cls z s).ea.toNat = (base + y) % 65536 ∧
      ((atIzy cls z s).crossed = true ↔ (atIzy cls z s).ea.toNat / 256 ≠ base / 256))

/-- The dummy read: ABX, ABY and IZY read the address without the carry always for Read-Modify-Write, else on a page
cross, else for Write under `WRITE_DUMMY_ALWAYS`; no other mode performs one: after IND only its two pointer reads have
happened, and IMP, IMM and REL resolve no address (R112, R113). -/
def Obligations.DummyReads : Prop :=
  ∀ (s : State) (cls : AccessClass) (z : Byte) (w : Word),
    let after (l : Located) (base : Word) (i : Byte) : State :=
      if cls = .readModifyWrite ∨ l.crossed = true ∨ (cls = .write ∧ s.cfg.writeDummyAlways = true) then
        (busRead (BitVec.ofNat 16 (base.toNat / 256 * 256 + (base.toNat + i.toNat) % 256)) s).2
      else s
    (atAbx cls w s).st = after (atAbx cls w s) w s.cpu.x ∧
    (atAby cls w s).st = after (atAby cls w s) w s.cpu.y ∧
    (atIzy cls z s).st =
      after (atIzy cls z s) (mkWord (s.cell (.ram ((z.toNat + 1) % 256))) (s.cell (.ram z.toNat))) s.cpu.y ∧
    (atZp0 z s).st = s ∧ (atZpx z s).st = s ∧ (atZpy z s).st = s ∧ (atAbs w s).st = s ∧ (atIzx z s).st = s ∧
    (atInd w s).st =
      (busRead (BitVec.ofNat 16 (w.toNat / 256 * 256 + (w.toNat + 1) % 256)) (busRead w s).2).2

/-! ## Data movement -/

/-- Loads: the register takes M, N and Z follow it, one more cycle on a page cross; nothing else changes (R140 to
R143). -/
def Obligations.Loads : Prop :=
  ∀ (s : State) (imm z : Byte) (w : Word),
    (∀ f ∈ [ReadForm.imm 0xA9 (.ldaImm imm) imm s, .mem 0xA5 (.ldaZp0 z) 3 (atZp0 z s), .mem 0xB5 (.ldaZpx z) 4 (atZpx z s),
        .mem 0xAD (.ldaAbs w) 4 (atAbs w s), .mem 0xBD (.ldaAbx w) 4 (atAbx .read w s),
        .mem 0xB9 (.ldaAby w) 4 (atAby .read w s), .mem 0xA1 (.ldaIzx z) 6 (atIzx z s),
        .mem 0xB1 (.ldaIzy z) 5 (atIzy .read z s)],
      f.i.opcode = f.op ∧ ∃ t, exec f.i s = .next t ∧
        t = { f.after with cpu := { s.cpu with a := f.m, p := t.cpu.p, cycles := f.cycles } } ∧
        FlagsNZ f.m t.cpu.p ∧ SameFlagsBut 0x82 s.cpu.p t.cpu.p ∧ SameMemory s t) ∧
    (∀ f ∈ [ReadForm.imm 0xA2 (.ldxImm imm) imm s, .mem 0xA6 (.ldxZp0 z) 3 (atZp0 z s), .mem 0xB6 (.ldxZpy z) 4 (atZpy z s),
        .mem 0xAE (.ldxAbs w) 4 (atAbs w s), .mem 0xBE (.ldxAby w) 4 (atAby .read w s)],
      f.i.opcode = f.op ∧ ∃ t, exec f.i s = .next t ∧
        t = { f.after with cpu := { s.cpu with x := f.m, p := t.cpu.p, cycles := f.cycles } } ∧
        FlagsNZ f.m t.cpu.p ∧ SameFlagsBut 0x82 s.cpu.p t.cpu.p ∧ SameMemory s t) ∧
    (∀ f ∈ [ReadForm.imm 0xA0 (.ldyImm imm) imm s, .mem 0xA4 (.ldyZp0 z) 3 (atZp0 z s), .mem 0xB4 (.ldyZpx z) 4 (atZpx z s),
        .mem 0xAC (.ldyAbs w) 4 (atAbs w s), .mem 0xBC (.ldyAbx w) 4 (atAbx .read w s)],
      f.i.opcode = f.op ∧ ∃ t, exec f.i s = .next t ∧
        t = { f.after with cpu := { s.cpu with y := f.m, p := t.cpu.p, cycles := f.cycles } } ∧
        FlagsNZ f.m t.cpu.p ∧ SameFlagsBut 0x82 s.cpu.p t.cpu.p ∧ SameMemory s t)

/-- Stores: the register's byte is written once at the effective address, no cycle is added, no flag or register changes,
and of all memory only the cell the write reaches changes (R140, R144 to R146). -/
def Obligations.Stores : Prop :=
  ∀ (s : State) (z : Byte) (w : Word),
    ∀ g ∈ [(s.cpu.a, [(⟨0x85, .staZp0 z, 3, atZp0 z s⟩ : Form), ⟨0x95, .staZpx z, 4, atZpx z s⟩, ⟨0x8D, .staAbs w, 4, atAbs w s⟩,
          ⟨0x9D, .staAbx w, 5, atAbx .write w s⟩, ⟨0x99, .staAby w, 5, atAby .write w s⟩, ⟨0x81, .staIzx z, 6, atIzx z s⟩,
          ⟨0x91, .staIzy z, 6, atIzy .write z s⟩]),
        (s.cpu.x, [⟨0x86, .stxZp0 z, 3, atZp0 z s⟩, ⟨0x96, .stxZpy z, 4, atZpy z s⟩, ⟨0x8E, .stxAbs w, 4, atAbs w s⟩]),
        (s.cpu.y, [⟨0x84, .styZp0 z, 3, atZp0 z s⟩, ⟨0x94, .styZpx z, 4, atZpx z s⟩, ⟨0x8C, .styAbs w, 4, atAbs w s⟩])],
      ∀ f ∈ g.2, f.i.opcode = f.op ∧ ∃ t, exec f.i s = .next t ∧
        t = { busWrite f.l.ea g.1 f.l.st with cpu := { (busWrite f.l.ea g.1 f.l.st).cpu with cycles := f.n } } ∧
        StoredAt (storedCell f.l.ea f.l.st) g.1 s t ∧ SameRegisters s.cpu t.cpu ∧ t.cpu.p = s.cpu.p

/-- Transfers: one register takes another's value; N and Z follow it, except TXS, which changes no flag (R147 to
R152). -/
def Obligations.Transfers : Prop :=
  ∀ s : State,
    (∀ f ∈ [((0xAA : Byte), Instr.tax, s.cpu.a, { s.cpu with x := s.cpu.a, cycles := 2 }),
        (0xA8, .tay, s.cpu.a, { s.cpu with y := s.cpu.a, cycles := 2 }),
        (0x8A, .txa, s.cpu.x, { s.cpu with a := s.cpu.x, cycles := 2 }),
        (0x98, .tya, s.cpu.y, { s.cpu with a := s.cpu.y, cycles := 2 }),
        (0xBA, .tsx, s.cpu.sp, { s.cpu with x := s.cpu.sp, cycles := 2 })],
      f.2.1.opcode = f.1 ∧ ∃ t, exec f.2.1 s = .next t ∧ t = { s with cpu := { f.2.2.2 with p := t.cpu.p } } ∧
        FlagsNZ f.2.2.1 t.cpu.p ∧ SameFlagsBut 0x82 s.cpu.p t.cpu.p) ∧
    (Instr.txs.opcode = 0x9A ∧ exec .txs s = .next { s with cpu := { s.cpu with sp := s.cpu.x, cycles := 2 } })

/-! ## Arithmetic and logic -/

/-- ADC: A takes the sum of A, M and C modulo 256; C is the carry out, V the signed overflow, N and Z follow the result;
D has no effect (R170, R171). -/
def Obligations.AdcAddsWithCarry : Prop :=
  ∀ (s : State) (imm z : Byte) (w : Word),
    ∀ f ∈ [ReadForm.imm 0x69 (.adcImm imm) imm s, .mem 0x65 (.adcZp0 z) 3 (atZp0 z s), .mem 0x75 (.adcZpx z) 4 (atZpx z s),
        .mem 0x6D (.adcAbs w) 4 (atAbs w s), .mem 0x7D (.adcAbx w) 4 (atAbx .read w s),
        .mem 0x79 (.adcAby w) 4 (atAby .read w s), .mem 0x61 (.adcIzx z) 6 (atIzx z s),
        .mem 0x71 (.adcIzy z) 5 (atIzy .read z s)],
      f.i.opcode = f.op ∧ ∃ t, exec f.i s = .next t ∧
        t = { f.after with cpu := { s.cpu with a := t.cpu.a, p := t.cpu.p, cycles := f.cycles } } ∧
        t.cpu.a.toNat = (s.cpu.a.toNat + f.m.toNat + (flagC s.cpu.p).toNat) % 256 ∧
        (flagC t.cpu.p = true ↔ 256 ≤ s.cpu.a.toNat + f.m.toNat + (flagC s.cpu.p).toNat) ∧
        (flagV t.cpu.p = true ↔ bit s.cpu.a 7 = bit f.m 7 ∧ bit t.cpu.a 7 ≠ bit s.cpu.a 7) ∧
        FlagsNZ t.cpu.a t.cpu.p ∧ SameFlagsBut 0xC3 s.cpu.p t.cpu.p ∧ SameMemory s t

/-- SBC: A takes A minus M minus the borrow modulo 256, the borrow being 1 when C is 0; C is 1 when none is needed, V the
signed overflow, N and Z follow the result; D has no effect (R170, R172). -/
def Obligations.SbcSubtractsWithBorrow : Prop :=
  ∀ (s : State) (imm z : Byte) (w : Word),
    ∀ f ∈ [ReadForm.imm 0xE9 (.sbcImm imm) imm s, .mem 0xE5 (.sbcZp0 z) 3 (atZp0 z s), .mem 0xF5 (.sbcZpx z) 4 (atZpx z s),
        .mem 0xED (.sbcAbs w) 4 (atAbs w s), .mem 0xFD (.sbcAbx w) 4 (atAbx .read w s),
        .mem 0xF9 (.sbcAby w) 4 (atAby .read w s), .mem 0xE1 (.sbcIzx z) 6 (atIzx z s),
        .mem 0xF1 (.sbcIzy z) 5 (atIzy .read z s)],
      f.i.opcode = f.op ∧ ∃ t, exec f.i s = .next t ∧
        t = { f.after with cpu := { s.cpu with a := t.cpu.a, p := t.cpu.p, cycles := f.cycles } } ∧
        t.cpu.a.toNat = (256 + s.cpu.a.toNat - f.m.toNat - (!flagC s.cpu.p).toNat) % 256 ∧
        (flagC t.cpu.p = true ↔ f.m.toNat + (!flagC s.cpu.p).toNat ≤ s.cpu.a.toNat) ∧
        (flagV t.cpu.p = true ↔ bit s.cpu.a 7 ≠ bit f.m 7 ∧ bit t.cpu.a 7 ≠ bit s.cpu.a 7) ∧
        FlagsNZ t.cpu.a t.cpu.p ∧ SameFlagsBut 0xC3 s.cpu.p t.cpu.p ∧ SameMemory s t

/-- AND, ORA and EOR: every bit of A is combined with M's; N and Z follow the result; C and V stay (R173 to R175). -/
def Obligations.Logic : Prop :=
  ∀ (s : State) (imm z : Byte) (w : Word),
    ∀ g ∈ [((fun a b => a && b : Bool → Bool → Bool),
          [ReadForm.imm 0x29 (.andImm imm) imm s, .mem 0x25 (.andZp0 z) 3 (atZp0 z s), .mem 0x35 (.andZpx z) 4 (atZpx z s),
          .mem 0x2D (.andAbs w) 4 (atAbs w s), .mem 0x3D (.andAbx w) 4 (atAbx .read w s),
          .mem 0x39 (.andAby w) 4 (atAby .read w s), .mem 0x21 (.andIzx z) 6 (atIzx z s),
          .mem 0x31 (.andIzy z) 5 (atIzy .read z s)]),
        (fun a b => a || b,
          [.imm 0x09 (.oraImm imm) imm s, .mem 0x05 (.oraZp0 z) 3 (atZp0 z s), .mem 0x15 (.oraZpx z) 4 (atZpx z s),
          .mem 0x0D (.oraAbs w) 4 (atAbs w s), .mem 0x1D (.oraAbx w) 4 (atAbx .read w s),
          .mem 0x19 (.oraAby w) 4 (atAby .read w s), .mem 0x01 (.oraIzx z) 6 (atIzx z s),
          .mem 0x11 (.oraIzy z) 5 (atIzy .read z s)]),
        (fun a b => a ^^ b,
          [.imm 0x49 (.eorImm imm) imm s, .mem 0x45 (.eorZp0 z) 3 (atZp0 z s), .mem 0x55 (.eorZpx z) 4 (atZpx z s),
          .mem 0x4D (.eorAbs w) 4 (atAbs w s), .mem 0x5D (.eorAbx w) 4 (atAbx .read w s),
          .mem 0x59 (.eorAby w) 4 (atAby .read w s), .mem 0x41 (.eorIzx z) 6 (atIzx z s),
          .mem 0x51 (.eorIzy z) 5 (atIzy .read z s)])],
      ∀ f ∈ g.2, f.i.opcode = f.op ∧ ∃ t, exec f.i s = .next t ∧
        t = { f.after with cpu := { s.cpu with a := t.cpu.a, p := t.cpu.p, cycles := f.cycles } } ∧
        (∀ i, i < 8 → bit t.cpu.a i = g.1 (bit s.cpu.a i) (bit f.m i)) ∧
        FlagsNZ t.cpu.a t.cpu.p ∧ SameFlagsBut 0x82 s.cpu.p t.cpu.p ∧ SameMemory s t

/-- The read-modify-write forms on memory: M is read, under `RMW_DUMMY_WRITE` written back, and the result is written; C
is the bit shifted out (kept by INC and DEC), N and Z follow the result, and no cycle is added (R114, R176, R177, R182 to
R185). -/
def Obligations.ReadModifyWrite : Prop :=
  ∀ (s : State) (z : Byte) (w : Word),
    ∀ g ∈ [((fun m c r c' => r.toNat = (m.toNat + 1) % 256 ∧ c' = c : ShiftRule),
          [(⟨0xE6, .incZp0 z, 5, atZp0 z s⟩ : Form), ⟨0xF6, .incZpx z, 6, atZpx z s⟩, ⟨0xEE, .incAbs w, 6, atAbs w s⟩,
          ⟨0xFE, .incAbx w, 7, atAbx .readModifyWrite w s⟩]),
        (fun m c r c' => r.toNat = (m.toNat + 255) % 256 ∧ c' = c,
          [⟨0xC6, .decZp0 z, 5, atZp0 z s⟩, ⟨0xD6, .decZpx z, 6, atZpx z s⟩, ⟨0xCE, .decAbs w, 6, atAbs w s⟩,
          ⟨0xDE, .decAbx w, 7, atAbx .readModifyWrite w s⟩]),
        (fun m _ r c' => r.toNat = 2 * m.toNat % 256 ∧ c' = bit m 7,
          [⟨0x06, .aslZp0 z, 5, atZp0 z s⟩, ⟨0x16, .aslZpx z, 6, atZpx z s⟩, ⟨0x0E, .aslAbs w, 6, atAbs w s⟩,
          ⟨0x1E, .aslAbx w, 7, atAbx .readModifyWrite w s⟩]),
        (fun m _ r c' => r.toNat = m.toNat / 2 ∧ c' = bit m 0,
          [⟨0x46, .lsrZp0 z, 5, atZp0 z s⟩, ⟨0x56, .lsrZpx z, 6, atZpx z s⟩, ⟨0x4E, .lsrAbs w, 6, atAbs w s⟩,
          ⟨0x5E, .lsrAbx w, 7, atAbx .readModifyWrite w s⟩]),
        (fun m c r c' => r.toNat = (2 * m.toNat + c.toNat) % 256 ∧ c' = bit m 7,
          [⟨0x26, .rolZp0 z, 5, atZp0 z s⟩, ⟨0x36, .rolZpx z, 6, atZpx z s⟩, ⟨0x2E, .rolAbs w, 6, atAbs w s⟩,
          ⟨0x3E, .rolAbx w, 7, atAbx .readModifyWrite w s⟩]),
        (fun m c r c' => r.toNat = m.toNat / 2 + 128 * c.toNat ∧ c' = bit m 0,
          [⟨0x66, .rorZp0 z, 5, atZp0 z s⟩, ⟨0x76, .rorZpx z, 6, atZpx z s⟩, ⟨0x6E, .rorAbs w, 6, atAbs w s⟩,
          ⟨0x7E, .rorAbx w, 7, atAbx .readModifyWrite w s⟩])],
      ∀ f ∈ g.2,
        let m := (busRead f.l.ea f.l.st).1
        let u := (busRead f.l.ea f.l.st).2
        let v := if s.cfg.rmwDummyWrite = true then busWrite f.l.ea m u else u
        f.i.opcode = f.op ∧ ∃ t r, exec f.i s = .next t ∧ g.1 m (flagC s.cpu.p) r (flagC t.cpu.p) ∧
          t = { busWrite f.l.ea r v with
            cpu := { (busWrite f.l.ea r v).cpu with p := t.cpu.p, cycles := f.n } } ∧
          FlagsNZ r t.cpu.p ∧ SameFlagsBut 0x83 s.cpu.p t.cpu.p ∧ SameRegisters s.cpu t.cpu ∧
          StoredAt (storedCell f.l.ea v) r v t ∧
          (if s.cfg.rmwDummyWrite = true then StoredAt (storedCell f.l.ea u) m s v else SameMemory s v)

/-- INX, INY, DEX and DEY: the index register moves by one modulo 256; N and Z follow it; C and V stay (R178 to R181). -/
def Obligations.IndexIncDec : Prop :=
  ∀ s : State,
    (∀ f ∈ [((0xE8 : Byte), Instr.inx, (s.cpu.x.toNat + 1) % 256), (0xCA, .dex, (s.cpu.x.toNat + 255) % 256)],
      f.2.1.opcode = f.1 ∧ ∃ t, exec f.2.1 s = .next t ∧ t.cpu.x.toNat = f.2.2 ∧
        t = { s with cpu := { s.cpu with x := t.cpu.x, p := t.cpu.p, cycles := 2 } } ∧
        FlagsNZ t.cpu.x t.cpu.p ∧ SameFlagsBut 0x82 s.cpu.p t.cpu.p) ∧
    (∀ f ∈ [((0xC8 : Byte), Instr.iny, (s.cpu.y.toNat + 1) % 256), (0x88, .dey, (s.cpu.y.toNat + 255) % 256)],
      f.2.1.opcode = f.1 ∧ ∃ t, exec f.2.1 s = .next t ∧ t.cpu.y.toNat = f.2.2 ∧
        t = { s with cpu := { s.cpu with y := t.cpu.y, p := t.cpu.p, cycles := 2 } } ∧
        FlagsNZ t.cpu.y t.cpu.p ∧ SameFlagsBut 0x82 s.cpu.p t.cpu.p)

/-- The accumulator forms of the shifts and rotates: A moves one bit, the bit shifted out goes to C, N and Z follow A (R182
to R185). -/
def Obligations.AccumulatorShifts : Prop :=
  ∀ s : State, ∀ f ∈ [((0x0A : Byte), Instr.aslImp, (fun m _ r c' => r.toNat = 2 * m.toNat % 256 ∧ c' = bit m 7 : ShiftRule)),
      (0x4A, .lsrImp, fun m _ r c' => r.toNat = m.toNat / 2 ∧ c' = bit m 0),
      (0x2A, .rolImp, fun m c r c' => r.toNat = (2 * m.toNat + c.toNat) % 256 ∧ c' = bit m 7),
      (0x6A, .rorImp, fun m c r c' => r.toNat = m.toNat / 2 + 128 * c.toNat ∧ c' = bit m 0)],
    f.2.1.opcode = f.1 ∧ ∃ t, exec f.2.1 s = .next t ∧ f.2.2 s.cpu.a (flagC s.cpu.p) t.cpu.a (flagC t.cpu.p) ∧
      t = { s with cpu := { s.cpu with a := t.cpu.a, p := t.cpu.p, cycles := 2 } } ∧
      FlagsNZ t.cpu.a t.cpu.p ∧ SameFlagsBut 0x83 s.cpu.p t.cpu.p

/-- BIT: Z tells whether A and M share no bit, N and V are bits 7 and 6 of M; A stays (R186). -/
def Obligations.BitTest : Prop :=
  ∀ (s : State) (z : Byte) (w : Word),
    ∀ f ∈ [ReadForm.mem 0x24 (.bitZp0 z) 3 (atZp0 z s), .mem 0x2C (.bitAbs w) 4 (atAbs w s)],
      f.i.opcode = f.op ∧ ∃ t, exec f.i s = .next t ∧
        t = { f.after with cpu := { s.cpu with p := t.cpu.p, cycles := f.cycles } } ∧
        (flagZ t.cpu.p = true ↔ ∀ i, i < 8 → (bit s.cpu.a i && bit f.m i) = false) ∧
        flagN t.cpu.p = bit f.m 7 ∧ flagV t.cpu.p = bit f.m 6 ∧ SameFlagsBut 0xC2 s.cpu.p t.cpu.p ∧ SameMemory s t

/-- CMP, CPX and CPY: C tells whether the register is at least M, Z whether they are equal, N is bit 7 of their 8-bit
difference; no register changes and V stays (R200 to R203). -/
def Obligations.Compares : Prop :=
  ∀ (s : State) (imm z : Byte) (w : Word),
    ∀ g ∈ [(s.cpu.a, [ReadForm.imm 0xC9 (.cmpImm imm) imm s, .mem 0xC5 (.cmpZp0 z) 3 (atZp0 z s),
          .mem 0xD5 (.cmpZpx z) 4 (atZpx z s), .mem 0xCD (.cmpAbs w) 4 (atAbs w s), .mem 0xDD (.cmpAbx w) 4 (atAbx .read w s),
          .mem 0xD9 (.cmpAby w) 4 (atAby .read w s), .mem 0xC1 (.cmpIzx z) 6 (atIzx z s),
          .mem 0xD1 (.cmpIzy z) 5 (atIzy .read z s)]),
        (s.cpu.x, [.imm 0xE0 (.cpxImm imm) imm s, .mem 0xE4 (.cpxZp0 z) 3 (atZp0 z s), .mem 0xEC (.cpxAbs w) 4 (atAbs w s)]),
        (s.cpu.y, [.imm 0xC0 (.cpyImm imm) imm s, .mem 0xC4 (.cpyZp0 z) 3 (atZp0 z s), .mem 0xCC (.cpyAbs w) 4 (atAbs w s)])],
      ∀ f ∈ g.2, f.i.opcode = f.op ∧ ∃ t, exec f.i s = .next t ∧
        t = { f.after with cpu := { s.cpu with p := t.cpu.p, cycles := f.cycles } } ∧
        (flagC t.cpu.p = true ↔ f.m.toNat ≤ g.1.toNat) ∧ (flagZ t.cpu.p = true ↔ g.1 = f.m) ∧
        (flagN t.cpu.p = true ↔ 128 ≤ (256 + g.1.toNat - f.m.toNat) % 256) ∧
        SameFlagsBut 0x83 s.cpu.p t.cpu.p ∧ SameMemory s t

/-! ## Control flow, stack and flags -/

/-- Branches: taken on their flag, PC moves by the signed offset modulo 65536 from the address after the branch, at 3
cycles, 4 when the target is on another page; not taken, 2 cycles; nothing else changes (R106, R210 to R218). -/
def Obligations.Branches : Prop :=
  ∀ (s : State) (off : Byte),
    ∀ f ∈ [((0x90 : Byte), Instr.bcc off, bit s.cpu.p 0 = false), (0xB0, .bcs off, bit s.cpu.p 0 = true),
        (0xF0, .beq off, bit s.cpu.p 1 = true), (0xD0, .bne off, bit s.cpu.p 1 = false),
        (0x30, .bmi off, bit s.cpu.p 7 = true), (0x10, .bpl off, bit s.cpu.p 7 = false),
        (0x50, .bvc off, bit s.cpu.p 6 = false), (0x70, .bvs off, bit s.cpu.p 6 = true)],
      let target := (s.cpu.pc.toNat + if off.toNat < 128 then off.toNat else off.toNat + 65280) % 65536
      f.2.1.opcode = f.1 ∧ ∃ t, exec f.2.1 s = .next t ∧
        t = { s with cpu := { s.cpu with pc := t.cpu.pc, cycles := t.cpu.cycles } } ∧
        (f.2.2 → t.cpu.pc.toNat = target ∧ t.cpu.cycles = if target / 256 = s.cpu.pc.toNat / 256 then 3 else 4) ∧
        (¬ f.2.2 → t.cpu.pc = s.cpu.pc ∧ t.cpu.cycles = 2)

/-- The stack instructions. PHA and PHP: the byte goes to the stack page at SP, SP moves down one modulo 256; PHP pushes P
with bits 4 and 5 set; nothing else changes (R24, R225 to R227). PLA and PLP: SP moves up one modulo 256 and the byte
there is pulled; PLA loads A with N and Z, PLP loads every flag but B, which is stored 0, and U, which is 1, and opens a
latency window under `PLP_I_LATENCY` (R225, R228, R229). -/
def Obligations.StackPushesAndPulls : Prop :=
  (∀ s : State,
    (Instr.pha.opcode = 0x48 ∧ ∃ t, exec .pha s = .next t ∧
      t = { s with ram := t.ram, cpu := { s.cpu with sp := s.cpu.sp - 1, cycles := 3 } } ∧
      StoredAt (some (stackCell s.cpu.sp)) s.cpu.a s t) ∧
    (Instr.php.opcode = 0x08 ∧ ∃ t b, exec .php s = .next t ∧
      t = { s with ram := t.ram, cpu := { s.cpu with sp := s.cpu.sp - 1, cycles := 3 } } ∧
      StoredAt (some (stackCell s.cpu.sp)) b s t ∧
      bit b 4 = true ∧ bit b 5 = true ∧ SameFlagsBut 0x30 s.cpu.p b)) ∧
  ∀ s : State,
    let v := s.cell (stackCell (s.cpu.sp + 1))
    (Instr.pla.opcode = 0x68 ∧ ∃ t, exec .pla s = .next t ∧
      t = { s with cpu := { s.cpu with a := v, sp := s.cpu.sp + 1, p := t.cpu.p, cycles := 4 } } ∧
      FlagsNZ v t.cpu.p ∧ SameFlagsBut 0x82 s.cpu.p t.cpu.p) ∧
    (Instr.plp.opcode = 0x28 ∧ ∃ t, exec .plp s = .next t ∧
      t = { s with cpu := { s.cpu with
        sp := s.cpu.sp + 1, p := t.cpu.p, cycles := 4
        iWindow := if s.cfg.plpILatency = true then some (bit s.cpu.p 2) else s.cpu.iWindow } } ∧
      SameFlagsBut 0x30 v t.cpu.p ∧ flagB t.cpu.p = false ∧ flagU t.cpu.p = true)

/-- The flag instructions write one flag and nothing else; CLI and SEI also open a latency window with the old I (R235 to
R241). NOP changes nothing but its two cycles (R265). -/
def Obligations.FlagInstructionsAndNop : Prop :=
  ∀ s : State,
    (Instr.nop.opcode = 0xEA ∧ exec .nop s = .next { s with cpu := { s.cpu with cycles := 2 } }) ∧
    ∀ f ∈ [((0x18 : Byte), Instr.clc, 0, false, s.cpu.iWindow), (0x38, .sec, 0, true, s.cpu.iWindow),
        (0x58, .cli, 2, false, some (bit s.cpu.p 2)), (0x78, .sei, 2, true, some (bit s.cpu.p 2)),
        (0xD8, .cld, 3, false, s.cpu.iWindow), (0xF8, .sed, 3, true, s.cpu.iWindow), (0xB8, .clv, 6, false, s.cpu.iWindow)],
      f.2.1.opcode = f.1 ∧ ∃ t, exec f.2.1 s = .next t ∧
        t = { s with cpu := { s.cpu with p := t.cpu.p, iWindow := f.2.2.2.2, cycles := 2 } } ∧
        ∀ i, i < 8 → bit t.cpu.p i = if i = f.2.2.1 then f.2.2.2.1 else bit s.cpu.p i

/-- JMP: PC takes the operand, or in the indirect form the word at the pointer, whose high byte is read from the pointer's
own page; the reads' side effects happen and nothing else changes (R109, R250). JSR pushes the address of its own last
byte, high byte first, and jumps; RTS pulls a word, low byte first, and goes to the address after it; neither changes
anything else (R251, R252). -/
def Obligations.JumpsAndSubroutines : Prop :=
  ∀ (s : State) (w : Word),
    ((Instr.jmpAbs w).opcode = 0x4C ∧ exec (.jmpAbs w) s = .next { s with cpu := { s.cpu with pc := w, cycles := 3 } }) ∧
    (let lo := busRead w s
      let hi := busRead (BitVec.ofNat 16 (w.toNat / 256 * 256 + (w.toNat + 1) % 256)) lo.2
      (Instr.jmpInd w).opcode = 0x6C ∧ ∃ t, exec (.jmpInd w) s = .next t ∧
        t = { hi.2 with cpu := { s.cpu with pc := t.cpu.pc, cycles := 5 } } ∧
        t.cpu.pc.toNat = 256 * hi.1.toNat + lo.1.toNat ∧ SameMemory s t) ∧
    ((Instr.jsr w).opcode = 0x20 ∧ ∃ t, exec (.jsr w) s = .next t ∧
      t = { s with ram := t.ram, cpu := { s.cpu with sp := s.cpu.sp - 2, pc := w, cycles := 6 } } ∧
      256 * (t.cell (stackCell s.cpu.sp)).toNat + (t.cell (stackCell (s.cpu.sp - 1))).toNat =
        (s.cpu.pc.toNat + 65535) % 65536 ∧
      ∀ c, c ≠ stackCell s.cpu.sp → c ≠ stackCell (s.cpu.sp - 1) → t.cell c = s.cell c) ∧
    (Instr.rts.opcode = 0x60 ∧ ∃ t, exec .rts s = .next t ∧
      t = { s with cpu := { s.cpu with sp := s.cpu.sp + 2, pc := t.cpu.pc, cycles := 6 } } ∧
      t.cpu.pc.toNat = (256 * (s.cell (stackCell (s.cpu.sp + 2))).toNat +
        (s.cell (stackCell (s.cpu.sp + 1))).toNat + 1) % 65536)

/-- RTI pulls P, then PC low byte first: B is stored 0 and U 1, every other flag is the pulled one, and no latency window
is set (R253). -/
def Obligations.RtiRestoresStatusAndPc : Prop :=
  ∀ s : State, Instr.rti.opcode = 0x40 ∧ ∃ t, exec .rti s = .next t ∧
    t = { s with cpu := { s.cpu with sp := s.cpu.sp + 3, p := t.cpu.p, pc := t.cpu.pc, cycles := 6 } } ∧
    SameFlagsBut 0x30 (s.cell (stackCell (s.cpu.sp + 1))) t.cpu.p ∧ flagB t.cpu.p = false ∧ flagU t.cpu.p = true ∧
    t.cpu.pc.toNat = 256 * (s.cell (stackCell (s.cpu.sp + 3))).toNat + (s.cell (stackCell (s.cpu.sp + 2))).toNat

/-- BRK enters the exception of the vector at $FFFE from the address after its padding byte, whatever I is, pushing P with
bit 4 set, in 7 cycles (R254). -/
def Obligations.BrkEntersHandler : Prop :=
  ∀ s : State, Instr.brk.opcode = 0x00 ∧ ∃ t, exec .brk s = .next t ∧
    Entered 0xFFFE true { s with cpu := { s.cpu with pc := s.cpu.pc + 1 } } t ∧ t.cpu.cycles = 7

/-- The unofficial opcodes under `UNOFFICIAL_POLICY = nop`: the addressing mode runs, with its pointer reads and the dummy
read of the row's class; no register, flag or memory changes; one more cycle on a page cross for the Read class (R267,
R268). -/
def Obligations.UnofficialNoOp : Prop :=
  ∀ (s : State) (imm z : Byte) (w : Word), s.cfg.unofficialPolicy = .nop →
    (∀ f ∈ ([⟨0x04, .unop04 z, 3, atZp0 z s⟩, ⟨0x0C, .unop0C w, 4, atAbs w s⟩, ⟨0x14, .unop14 z, 4, atZpx z s⟩,
        ⟨0x1C, .unop1C w, 4, atAbx .read w s⟩, ⟨0x34, .unop34 z, 4, atZpx z s⟩, ⟨0x3C, .unop3C w, 4, atAbx .read w s⟩,
        ⟨0x44, .unop44 z, 3, atZp0 z s⟩, ⟨0x54, .unop54 z, 4, atZpx z s⟩, ⟨0x5C, .unop5C w, 4, atAbx .read w s⟩,
        ⟨0x64, .unop64 z, 3, atZp0 z s⟩, ⟨0x74, .unop74 z, 4, atZpx z s⟩, ⟨0x7C, .unop7C w, 4, atAbx .read w s⟩,
        ⟨0xA3, .laxIzx z, 6, atIzx z s⟩, ⟨0xA7, .laxZp0 z, 3, atZp0 z s⟩, ⟨0xAF, .laxAbs w, 4, atAbs w s⟩,
        ⟨0xB3, .laxIzy z, 5, atIzy .read z s⟩, ⟨0xB7, .laxZpy z, 4, atZpy z s⟩, ⟨0xBB, .las w, 4, atAby .read w s⟩,
        ⟨0xBF, .laxAby w, 4, atAby .read w s⟩, ⟨0xD4, .unopD4 z, 4, atZpx z s⟩, ⟨0xDC, .unopDC w, 4, atAbx .read w s⟩,
        ⟨0xF4, .unopF4 z, 4, atZpx z s⟩, ⟨0xFC, .unopFC w, 4, atAbx .read w s⟩] : List Form),
      f.i.opcode = f.op ∧ ∃ t, exec f.i s = .next t ∧ SameMemory s t ∧
        t = { f.l.st with cpu := { s.cpu with cycles := f.n + if f.l.crossed = true then 1 else 0 } }) ∧
    (∀ f ∈ ([⟨0x02, .jam02, 2, ⟨0, false, s⟩⟩, ⟨0x03, .sloIzx z, 8, atIzx z s⟩, ⟨0x07, .sloZp0 z, 5, atZp0 z s⟩,
         ⟨0x0B, .anc0B imm, 2, ⟨0, false, s⟩⟩, ⟨0x0F, .sloAbs w, 6, atAbs w s⟩, ⟨0x12, .jam12, 2, ⟨0, false, s⟩⟩,
         ⟨0x13, .sloIzy z, 8, atIzy .readModifyWrite z s⟩, ⟨0x17, .sloZpx z, 6, atZpx z s⟩,
         ⟨0x1A, .unop1A, 2, ⟨0, false, s⟩⟩, ⟨0x1B, .sloAby w, 7, atAby .readModifyWrite w s⟩,
         ⟨0x1F, .sloAbx w, 7, atAbx .readModifyWrite w s⟩, ⟨0x22, .jam22, 2, ⟨0, false, s⟩⟩,
         ⟨0x23, .rlaIzx z, 8, atIzx z s⟩, ⟨0x27, .rlaZp0 z, 5, atZp0 z s⟩, ⟨0x2B, .anc2B imm, 2, ⟨0, false, s⟩⟩,
         ⟨0x2F, .rlaAbs w, 6, atAbs w s⟩, ⟨0x32, .jam32, 2, ⟨0, false, s⟩⟩,
         ⟨0x33, .rlaIzy z, 8, atIzy .readModifyWrite z s⟩, ⟨0x37, .rlaZpx z, 6, atZpx z s⟩,
         ⟨0x3A, .unop3A, 2, ⟨0, false, s⟩⟩, ⟨0x3B, .rlaAby w, 7, atAby .readModifyWrite w s⟩,
         ⟨0x3F, .rlaAbx w, 7, atAbx .readModifyWrite w s⟩, ⟨0x42, .jam42, 2, ⟨0, false, s⟩⟩,
         ⟨0x43, .sreIzx z, 8, atIzx z s⟩, ⟨0x47, .sreZp0 z, 5, atZp0 z s⟩, ⟨0x4B, .alr imm, 2, ⟨0, false, s⟩⟩,
         ⟨0x4F, .sreAbs w, 6, atAbs w s⟩, ⟨0x52, .jam52, 2, ⟨0, false, s⟩⟩] ++
        [⟨0x53, .sreIzy z, 8, atIzy .readModifyWrite z s⟩, ⟨0x57, .sreZpx z, 6, atZpx z s⟩,
         ⟨0x5A, .unop5A, 2, ⟨0, false, s⟩⟩, ⟨0x5B, .sreAby w, 7, atAby .readModifyWrite w s⟩,
         ⟨0x5F, .sreAbx w, 7, atAbx .readModifyWrite w s⟩, ⟨0x62, .jam62, 2, ⟨0, false, s⟩⟩,
         ⟨0x63, .rraIzx z, 8, atIzx z s⟩, ⟨0x67, .rraZp0 z, 5, atZp0 z s⟩, ⟨0x6B, .arr imm, 2, ⟨0, false, s⟩⟩,
         ⟨0x6F, .rraAbs w, 6, atAbs w s⟩, ⟨0x72, .jam72, 2, ⟨0, false, s⟩⟩,
         ⟨0x73, .rraIzy z, 8, atIzy .readModifyWrite z s⟩, ⟨0x77, .rraZpx z, 6, atZpx z s⟩,
         ⟨0x7A, .unop7A, 2, ⟨0, false, s⟩⟩, ⟨0x7B, .rraAby w, 7, atAby .readModifyWrite w s⟩,
         ⟨0x7F, .rraAbx w, 7, atAbx .readModifyWrite w s⟩, ⟨0x80, .unop80 imm, 2, ⟨0, false, s⟩⟩,
         ⟨0x82, .unop82 imm, 2, ⟨0, false, s⟩⟩, ⟨0x83, .saxIzx z, 6, atIzx z s⟩, ⟨0x87, .saxZp0 z, 3, atZp0 z s⟩,
         ⟨0x89, .unop89 imm, 2, ⟨0, false, s⟩⟩, ⟨0x8B, .ane imm, 2, ⟨0, false, s⟩⟩, ⟨0x8F, .saxAbs w, 4, atAbs w s⟩,
         ⟨0x92, .jam92, 2, ⟨0, false, s⟩⟩, ⟨0x93, .shaIzy z, 6, atIzy .write z s⟩, ⟨0x97, .saxZpy z, 4, atZpy z s⟩,
         ⟨0x9B, .tas w, 5, atAby .write w s⟩, ⟨0x9C, .shy w, 5, atAbx .write w s⟩] ++
        [⟨0x9E, .shx w, 5, atAby .write w s⟩, ⟨0x9F, .shaAby w, 5, atAby .write w s⟩,
         ⟨0xAB, .lxa imm, 2, ⟨0, false, s⟩⟩, ⟨0xB2, .jamB2, 2, ⟨0, false, s⟩⟩, ⟨0xC2, .unopC2 imm, 2, ⟨0, false, s⟩⟩,
         ⟨0xC3, .dcpIzx z, 8, atIzx z s⟩, ⟨0xC7, .dcpZp0 z, 5, atZp0 z s⟩, ⟨0xCB, .sbx imm, 2, ⟨0, false, s⟩⟩,
         ⟨0xCF, .dcpAbs w, 6, atAbs w s⟩, ⟨0xD2, .jamD2, 2, ⟨0, false, s⟩⟩,
         ⟨0xD3, .dcpIzy z, 8, atIzy .readModifyWrite z s⟩, ⟨0xD7, .dcpZpx z, 6, atZpx z s⟩,
         ⟨0xDA, .unopDA, 2, ⟨0, false, s⟩⟩, ⟨0xDB, .dcpAby w, 7, atAby .readModifyWrite w s⟩,
         ⟨0xDF, .dcpAbx w, 7, atAbx .readModifyWrite w s⟩, ⟨0xE2, .unopE2 imm, 2, ⟨0, false, s⟩⟩,
         ⟨0xE3, .iscIzx z, 8, atIzx z s⟩, ⟨0xE7, .iscZp0 z, 5, atZp0 z s⟩, ⟨0xEB, .usbc imm, 2, ⟨0, false, s⟩⟩,
         ⟨0xEF, .iscAbs w, 6, atAbs w s⟩, ⟨0xF2, .jamF2, 2, ⟨0, false, s⟩⟩,
         ⟨0xF3, .iscIzy z, 8, atIzy .readModifyWrite z s⟩, ⟨0xF7, .iscZpx z, 6, atZpx z s⟩,
         ⟨0xFA, .unopFA, 2, ⟨0, false, s⟩⟩, ⟨0xFB, .iscAby w, 7, atAby .readModifyWrite w s⟩,
         ⟨0xFF, .iscAbx w, 7, atAbx .readModifyWrite w s⟩] : List Form),
      f.i.opcode = f.op ∧ ∃ t, exec f.i s = .next t ∧ SameMemory s t ∧
        t = { f.l.st with cpu := { s.cpu with cycles := f.n } })

/-- The unofficial opcodes under `UNOFFICIAL_POLICY = refuse`: each stops the machine with its opcode and the address it
was fetched from, and nothing else ever does (R266; that it stops after the operand bytes are read is the model's reading,
log entry 9). -/
def Obligations.UnofficialRefused : Prop :=
  (∀ (s : State) (imm z : Byte) (w : Word), s.cfg.unofficialPolicy = .refuse → ∀ i ∈ unofficialInstrs imm z w,
    exec i s = .refused (.unofficialOpcode i.opcode (BitVec.ofNat 16 (s.cpu.pc.toNat + 65536 - i.byteLength)))) ∧
  ∀ (i : Instr) (s : State) (r : Refusal), exec i s = .refused r →
    s.cfg.unofficialPolicy = .refuse ∧ i.opcode ∈ (unofficialInstrs 0 0 0).map Instr.opcode

/-! ## The bus and the devices -/

/-- The bus dispatch: RAM with its mirrors below $2000, the PPU's registers mirrored every 8 bytes below $4000, reads of
$4000 to $4014 as 0, nothing at $4018 to $5FFF, and above it nothing without a cartridge, else PRG-RAM and then the
mapper's PRG-ROM, which no write changes (R67, R70 to R75, R498, R499). -/
def Obligations.BusDispatch : Prop :=
  ∀ (s : State) (a : Word) (v : Byte),
    (a < 0x2000 → busRead a s = (s.cell (.ram (a.toNat % 2048)), s) ∧ busWrite a v s = { s with ram := (busWrite a v s).ram } ∧
      StoredAt (some (.ram (a.toNat % 2048))) v s (busWrite a v s)) ∧
    (0x2000 ≤ a → a < 0x4000 → busRead a s = busRead (BitVec.ofNat 16 (8192 + a.toNat % 8)) s ∧
      busWrite a v s = busWrite (BitVec.ofNat 16 (8192 + a.toNat % 8)) v s) ∧
    (0x4000 ≤ a → a ≤ 0x4014 → busRead a s = (0, s)) ∧
    (0x4018 ≤ a → a < 0x6000 → busRead a s = (0, s) ∧ busWrite a v s = s) ∧
    (0x6000 ≤ a → s.cart = none → busRead a s = (0, s) ∧ busWrite a v s = s) ∧
    (∀ c, s.cart = some c → 0x6000 ≤ a → a < 0x8000 → busRead a s = (s.cell (.prgRam (a.toNat - 0x6000)), s) ∧
      StoredAt (some (.prgRam (a.toNat - 0x6000))) v s (busWrite a v s)) ∧
    (∀ c, s.cart = some c → 0x8000 ≤ a → busRead a s = (s.cell (.prgRom (c.prgOffset a)), s) ∧
      SameMemory s (busWrite a v s))

/-- The PPU's registers but PPUADDR and PPUDATA. A read of PPUSTATUS gives the three status bits over the low bits of the
read buffer, clears vertical blank and the write toggle, and does nothing else; a write of it is ignored. PPUCTRL also
sets `t[11:10]`, and latches NMI on its bit 7's rise in vertical blank under `NMI_ON_CTRL_ENABLE`; PPUMASK and OAMADDR
take the byte; OAMDATA stores it at OAMADDR and moves OAMADDR on, and a read moves nothing; PPUSCROLL's two writes go by
the toggle; the other registers read 0 (R354 to R359, R364). -/
def Obligations.PpuRegisters : Prop :=
  ∀ (s : State) (d : Byte),
    (let t := (busRead 0x2002 s).2;
      (busRead 0x2002 s).1.toNat = s.ppu.status.toNat / 32 * 32 + s.ppu.readBuffer.toNat % 32 ∧
      t = { s with ppu := { s.ppu with status := t.ppu.status, w := false } } ∧
      (∀ i, i < 8 → bit t.ppu.status i = if i = 7 then false else bit s.ppu.status i) ∧
      busWrite 0x2002 d s = s) ∧
    (let t := busWrite 0x2000 d s;
      t = { s with
        ppu := { s.ppu with ctrl := d, t := t.ppu.t }
        cpu := { s.cpu with nmiPending := s.cpu.nmiPending ||
          (s.cfg.nmiOnCtrlEnable && !bit s.ppu.ctrl 7 && bit d 7 && bit s.ppu.status 7) } } ∧
      ∀ i, i < 15 → bit t.ppu.t i = if i = 10 then bit d 0 else if i = 11 then bit d 1 else bit s.ppu.t i) ∧
    busWrite 0x2001 d s = { s with ppu := { s.ppu with mask := d } } ∧
    busWrite 0x2003 d s = { s with ppu := { s.ppu with oamaddr := d } } ∧
    (let t := busWrite 0x2004 d s;
      t = { s with ppu := { s.ppu with oam := t.ppu.oam, oamaddr := s.ppu.oamaddr + 1 } } ∧
      StoredAt (some (.oam s.ppu.oamaddr.toNat)) d s t) ∧
    busRead 0x2004 s = (s.cell (.oam s.ppu.oamaddr.toNat), s) ∧
    (let t := busWrite 0x2005 d s;
      (s.ppu.w = false →
        t = { s with ppu := { s.ppu with fineX := BitVec.ofNat 3 d.toNat, t := t.ppu.t, w := true } } ∧
        ∀ i, i < 15 → bit t.ppu.t i = if i < 5 then bit d (i + 3) else bit s.ppu.t i) ∧
      (s.ppu.w = true →
        t = { s with ppu := { s.ppu with t := t.ppu.t, w := false } } ∧
        ∀ i, i < 15 → bit t.ppu.t i =
          if 5 ≤ i ∧ i < 10 then bit d (i - 2) else if 12 ≤ i then bit d (i - 12) else bit s.ppu.t i)) ∧
    ∀ a ∈ [(0x2000 : Word), 0x2001, 0x2003, 0x2005, 0x2006], busRead a s = (0, s)

/-- PPUADDR and PPUDATA: two writes of $2006 with the toggle clear set `v`; a read of $2007 gives the old buffer, or the
byte itself from $3F00 on, and a write stores to the cell at `v`; each then steps `v` by 1 or 32 modulo 32768 (R365,
R366). -/
def Obligations.PpuAddrAndData : Prop :=
  ∀ (s : State) (hi lo d : Byte),
    let step := if bit s.ppu.ctrl 2 = true then 32 else 1
    let a : PpuAddr := BitVec.ofNat 14 s.ppu.v.toNat
    (s.ppu.w = false → ∃ p : Ppu, busWrite 0x2006 lo (busWrite 0x2006 hi s) = { s with ppu := p } ∧
      p = { s.ppu with v := p.v, t := p.v } ∧ p.v.toNat = hi.toNat % 64 * 256 + lo.toNat) ∧
    ((busRead 0x2007 s).1 = (if a.toNat ≥ 0x3F00 then ppuRead s.cart s.ppu a else s.ppu.readBuffer) ∧
      ∃ p : Ppu, (busRead 0x2007 s).2 = { s with ppu := p } ∧
        p = { s.ppu with v := p.v, readBuffer := ppuRead s.cart s.ppu a } ∧ p.v.toNat = (s.ppu.v.toNat + step) % 32768) ∧
    (StoredAt (ppuCell s.cart a) d s (busWrite 0x2007 d s) ∧ (busWrite 0x2007 d s).cpu = s.cpu ∧
      (busWrite 0x2007 d s).ppu.v.toNat = (s.ppu.v.toNat + step) % 32768)

/-- The PPU bus. The palette: its 32 entries repeat through $3F00 to $3FFF, the four sprite entries $10, $14, $18 and $1C
are the background's, all 8 bits are stored, and a read gives the low 6 bits, under greyscale bits 5 and 4 only (R363).
The nametables: $2000 to $3EFF reach two tables of 1 KB by the mirroring in force, which is the header's until mapper 001
or mapper 004 has written its own (R362, R496, R512, R533). Below $2000 are the cartridge's CHR, written only when it is
RAM, or without a cartridge the pattern RAM (R360, R500). `ppuCell` names the cell each write reaches. -/
def Obligations.VideoMemoryMirrors : Prop :=
  ∀ (c : Option Cartridge) (p : Ppu) (a b : PpuAddr) (d : Byte),
    let q := (ppuWrite c p a d).2
    (0x3F00 ≤ a → 0x3F00 ≤ b →
      let fold (n : Nat) : Nat := if n % 32 ∈ [16, 20, 24, 28] then n % 32 - 16 else n % 32
      (ppuWrite c p a d).1 = c ∧ q = { p with palette := q.palette } ∧
      Store.read q.palette (fold a.toNat) = d ∧ ppuCell c a = some (.palette (fold a.toNat)) ∧
      (∀ i, i < 8 → bit (ppuRead c q b) i =
        (decide (i < 6) && (!bit p.mask 0 || decide (4 ≤ i)) &&
          (if fold a.toNat = fold b.toNat then bit d i else bit (Store.read p.palette (fold b.toNat)) i)))) ∧
    (0x2000 ≤ a → a < 0x3F00 → 0x2000 ≤ b → b < 0x3F00 →
      let mode : Mirroring := match c with
        | none => .horizontal
        | some c => match c.mapper with
          | .m001 r => if r.ctrlLoaded = true then
              [.singleLo, .singleHi, .vertical, .horizontal].getD (r.control.toNat % 4) c.headerMirroring
            else c.headerMirroring
          | .m004 r => if r.mirWritten = true then r.mirroring else c.headerMirroring
          | .m000 | .m002 _ | .m003 _ => c.headerMirroring
      let index (n : Nat) : Nat := n % 1024 + match mode with
        | .vertical => n / 1024 % 2 * 1024
        | .horizontal => n / 2048 % 2 * 1024
        | .singleLo => 0
        | .singleHi => 1024
      (ppuWrite c p a d).1 = c ∧ q = { p with nametable := q.nametable } ∧
      ppuCell c a = some (.nametable (index a.toNat)) ∧
      ppuRead c p b = Store.read p.nametable (index b.toNat) ∧
      ppuRead c q b = if index a.toNat = index b.toNat then d else ppuRead c p b) ∧
    (a < 0x2000 → b < 0x2000 →
      (c = none → (ppuWrite c p a d).1 = none ∧ q = { p with patternRam := q.patternRam } ∧
        ppuCell c a = some (.patternRam a.toNat) ∧ ppuRead c p b = Store.read p.patternRam b.toNat ∧
        ppuRead c q b = if a = b then d else ppuRead c p b) ∧
      (∀ k, c = some k → q = p ∧ ppuRead c p b = Store.read k.chr (k.chrOffset b) ∧
        ppuCell c a = (if k.chrIsRam = true then some (.chr (k.chrOffset a)) else none) ∧
        ∃ m, (ppuWrite c p a d).1 = some { k with chr := m } ∧ ∀ i, Store.read m i =
          if k.chrIsRam = true ∧ i = k.chrOffset a then d else Store.read k.chr i))

/-- Vertical blank starts at scanline 241 cycle 1, where NMI is latched when PPUCTRL enables it, and ends, with the
sprite-0 hit and overflow flags, at scanline -1 cycle 1; no other PPU tick changes the flag or latches NMI (R291, R370,
R379). -/
def Obligations.VblankAndNmi : Prop :=
  ∀ s : State,
    let t := ppuClock s
    (s.ppu.scanline = 241 → s.ppu.cycle = 1 →
      bit t.ppu.status 7 = true ∧ t.cpu.nmiPending = (s.cpu.nmiPending || bit s.ppu.ctrl 7)) ∧
    (s.ppu.scanline = -1 → s.ppu.cycle = 1 →
      bit t.ppu.status 7 = false ∧ bit t.ppu.status 6 = false ∧ bit t.ppu.status 5 = false) ∧
    (¬ (s.ppu.scanline = 241 ∧ s.ppu.cycle = 1) → t.cpu = s.cpu) ∧
    (¬ (s.ppu.cycle = 1 ∧ (s.ppu.scanline = 241 ∨ s.ppu.scanline = -1)) → bit t.ppu.status 7 = bit s.ppu.status 7)

/-- Each PPU tick moves to the next cycle, 341 to a scanline, scanlines -1 to 260; the wrap sets frame-complete and flips
the odd-frame flag, and the odd-frame skip passes over cycle 0 of scanline 0 (R371, R373). -/
def Obligations.PpuPosition : Prop :=
  ∀ s : State, s.RangesOk →
    let t := ppuClock s
    let skip : Prop := s.ppu.scanline = 0 ∧ s.ppu.cycle = 0 ∧ s.ppu.oddFrame = true ∧
      (s.cfg.oddFrameSkip = .oddFramesAlways ∨
        (s.cfg.oddFrameSkip = .oddFramesWhenRendering ∧ (bit s.ppu.mask 3 = true ∨ bit s.ppu.mask 4 = true)))
    (skip → t.ppu.cycle = 2 ∧ t.ppu.scanline = 0) ∧
    (¬ skip → s.ppu.cycle < 340 → t.ppu.cycle = s.ppu.cycle + 1 ∧ t.ppu.scanline = s.ppu.scanline) ∧
    (s.ppu.cycle = 340 → t.ppu.cycle = 0 ∧ t.ppu.scanline = if s.ppu.scanline = 260 then -1 else s.ppu.scanline + 1) ∧
    (if s.ppu.cycle = 340 ∧ s.ppu.scanline = 260 then t.ppu.frameComplete = true ∧ t.ppu.oddFrame = !s.ppu.oddFrame
      else t.ppu.frameComplete = s.ppu.frameComplete ∧ t.ppu.oddFrame = s.ppu.oddFrame)

/-- Sprite evaluation at cycle 257 of a visible scanline: of the sprites in range for the next line, in OAM order, the
first eight fill the sprite units and a ninth sets the overflow flag, which nothing here clears (R381). Sprite fetch at
cycle 340 of a fetching scanline: each unit in use takes its two pattern bytes, the second 8 above the first, from the
row its vertical flip gives, in reversed bit order under its horizontal flip (R382 to R384); nothing is said of a flipped
row below 0, for which R383 states no address (the model's free value, log entry 11). -/
def Obligations.SpriteEvaluationAndFetch : Prop :=
  (∀ s : State, 0 ≤ s.ppu.scanline → s.ppu.scanline ≤ 239 → s.ppu.cycle = 257 →
    let t := ppuClock s
    let oam (i : Nat) : Byte := s.cell (.oam i)
    let inRange (n : Nat) : Bool := decide ((oam (4 * n)).toNat ≤ s.ppu.scanline ∧
      s.ppu.scanline < (oam (4 * n)).toNat + if bit s.ppu.ctrl 5 = true then 16 else 8)
    let before (n : Nat) : Nat := (List.range n).countP inRange
    t.ppu.sprCount = min 8 (before 64) ∧ t.ppu.sprites.length = 8 ∧
    (∀ n, n < 64 → inRange n = true → before n < 8 →
      t.ppu.sprites[before n]? = some ⟨oam (4 * n), oam (4 * n + 1), oam (4 * n + 2), oam (4 * n + 3), 0, 0⟩) ∧
    (∀ k, min 8 (before 64) ≤ k → k < 8 → t.ppu.sprites[k]? = some ⟨0xFF, 0xFF, 0xFF, 0xFF, 0, 0⟩) ∧
    t.ppu.spr0Possible = inRange 0 ∧
    bit t.ppu.status 5 = (decide (8 < before 64) || bit s.ppu.status 5)) ∧
  ∀ s : State, -1 ≤ s.ppu.scanline → s.ppu.scanline ≤ 239 → s.ppu.cycle = 340 →
    ∀ (i : Nat) (u : SpriteUnit), s.ppu.sprites[i]? = some u → ∃ w, (ppuClock s).ppu.sprites[i]? = some w ∧
      w = { u with lo := w.lo, hi := w.hi } ∧ (s.ppu.sprCount ≤ i → w = u) ∧
      let tall := bit s.ppu.ctrl 5
      let row : Int := s.ppu.scanline - u.y.toNat
      let r : Int := if bit u.attr 7 = true then (if tall = true then 15 else 7) - row else row
      let base : Nat :=
        if tall = true then u.id.toNat % 2 * 4096 + (u.id.toNat / 2 * 2 + if 8 ≤ r then 1 else 0) * 16 + r.toNat % 8
        else (bit s.ppu.ctrl 3).toNat * 4096 + u.id.toNat * 16 + r.toNat
      (i < s.ppu.sprCount → 0 ≤ r → r < 16 → ∀ k, k < 8 →
        let from_ := if bit u.attr 6 = true then 7 - k else k
        bit w.lo k = bit (ppuRead s.cart s.ppu (BitVec.ofNat 14 base)) from_ ∧
        bit w.hi k = bit (ppuRead s.cart s.ppu (BitVec.ofNat 14 (base + 8))) from_)

/-- One tick of a fetching scanline, -1 to 239: the scroll increments and transfers of `v` while rendering is on, the
background latches of the 8-cycle sequence, and the shifters, which shift in the fetch windows and take the latches at the
start of a sequence; the sprite units in use count down, then shift, but for the ticks that clear, evaluate or fetch them;
outside these scanlines nothing of the kind changes, and on no tick a register or memory that the CPU writes (R370, R374 to
R378, R380). -/
def Obligations.BackgroundFetches : Prop :=
  ∀ s : State,
    let p := s.ppu
    let q := (ppuClock s).ppu
    let n := p.cycle
    let v := p.v.toNat
    let read (a : Nat) : Byte := ppuRead s.cart p (BitVec.ofNat 14 a)
    let line := decide (-1 ≤ p.scanline ∧ p.scanline ≤ 239)
    let window := line && decide ((2 ≤ n ∧ n ≤ 257) ∨ (321 ≤ n ∧ n ≤ 337))
    let slot (k : Nat) : Bool := window && decide ((n - 1) % 8 = k)
    let shifted (x : BitVec 16) : Nat := if (window && bit p.mask 3) = true then 2 * x.toNat % 65536 else x.toNat
    let loaded (x : BitVec 16) (b : Nat) : Nat := if slot 0 = true then shifted x / 256 * 256 + b else shifted x
    let pattern (o : Nat) : Byte := read ((bit p.ctrl 4).toNat * 4096 + p.bgNextTileId.toNat * 16 + v / 4096 + o)
    q.v.toNat =
      (if (line && (bit p.mask 3 || bit p.mask 4)) = false then v
      else if n = 256 then fineYStep (coarseXStep v)
      else if n = 257 then transferXStep v p.t.toNat
      else if slot 7 = true then coarseXStep v
      else if p.scanline = -1 ∧ 280 ≤ n ∧ n ≤ 304 then transferYStep v p.t.toNat
      else v) ∧
    q.bgNextTileId =
      (if (slot 0 || (line && decide (n = 338 ∨ n = 340))) = true then read (0x2000 + v % 4096) else p.bgNextTileId) ∧
    q.bgNextAttrib.toNat =
      (if slot 2 = true then
        (read (0x23C0 + v / 1024 % 4 * 1024 + v / 128 % 8 * 8 + v / 4 % 8)).toNat / 16 ^ (v / 64 % 2) / 4 ^ (v / 2 % 2) % 4
      else p.bgNextAttrib.toNat) ∧
    q.bgNextLsb = (if slot 4 = true then pattern 0 else p.bgNextLsb) ∧
    q.bgNextMsb = (if slot 6 = true then pattern 8 else p.bgNextMsb) ∧
    q.bgPatLo.toNat = loaded p.bgPatLo p.bgNextLsb.toNat ∧ q.bgPatHi.toNat = loaded p.bgPatHi p.bgNextMsb.toNat ∧
    q.bgAttLo.toNat = loaded p.bgAttLo (if bit p.bgNextAttrib 0 = true then 255 else 0) ∧
    q.bgAttHi.toNat = loaded p.bgAttHi (if bit p.bgNextAttrib 1 = true then 255 else 0) ∧
    ((line && decide ((p.scanline = -1 ∧ n = 1) ∨ (0 ≤ p.scanline ∧ n = 257) ∨ n = 340)) = false →
      ∀ (i : Nat) (u : SpriteUnit), p.sprites[i]? = some u → q.sprites[i]? = some (
        if (window && bit p.mask 4 && decide (n ≤ 257)) = false ∨ p.sprCount ≤ i then u
        else if u.x = 0 then { u with lo := u.lo <<< 1, hi := u.hi <<< 1 }
        else { u with x := u.x - 1 })) ∧
    q.ctrl = p.ctrl ∧ q.mask = p.mask ∧ q.t = p.t ∧ q.fineX = p.fineX ∧ q.w = p.w ∧ q.readBuffer = p.readBuffer ∧
    q.oamaddr = p.oamaddr ∧ SameMemory s (ppuClock s)

/-- The pixel of a tick, at the column one less than its cycle, on scanlines 0 to 239: the background's two bits at the fine
X position of the shifters, the front-most opaque sprite at its left edge, each hidden when its layer or its left column is
off; the priority bit decides between two opaque pixels, which with sprite 0 set the hit flag; the framebuffer takes the
low six bits of the palette entry there and no other entry changes (R390 to R394). The shifters, units and PPUMASK are
those that the tick's fetches leave. -/
def Obligations.Compositing : Prop :=
  ∀ s : State,
    let t := ppuClock s
    let p := t.ppu
    let col := p.cycle - 2
    let drawn : Prop := 0 ≤ s.ppu.scanline ∧ s.ppu.scanline ≤ 239 ∧ 2 ≤ p.cycle ∧ p.cycle ≤ 257
    let left (k : Nat) : Bool := bit p.mask k || decide (8 ≤ col)
    let two (hi lo : Bool) : Nat := 2 * hi.toNat + lo.toNat
    let i := 15 - p.fineX.toNat
    let bgOn := bit p.mask 3 && left 1
    let bg : Nat := if bgOn = true then two (bit p.bgPatHi i) (bit p.bgPatLo i) else 0
    let bgPal : Nat := if bgOn = true then two (bit p.bgAttHi i) (bit p.bgAttLo i) else 0
    let unit (k : Nat) : SpriteUnit := p.sprites.getD k ⟨0, 0, 0, 0, 0, 0⟩
    let opaqueAt (k : Nat) : Bool := decide ((unit k).x = 0) && decide (two (bit (unit k).hi 7) (bit (unit k).lo 7) ≠ 0)
    let first : Option Nat := if (bit p.mask 4 && left 2) = true then (List.range p.sprCount).find? opaqueAt else none
    let fg : Nat := match first with
      | some k => two (bit (unit k).hi 7) (bit (unit k).lo 7)
      | none => 0
    let fgPal : Nat := match first with
      | some k => (unit k).attr.toNat % 4 + 4
      | none => 0
    let behind : Bool := match first with
      | some k => bit (unit k).attr 5
      | none => false
    let address : Nat := 0x3F00 +
      if bg = 0 ∧ fg = 0 then 0
      else if fg = 0 ∨ (bg ≠ 0 ∧ behind = true) then 4 * bgPal + bg
      else 4 * fgPal + fg
    (drawn →
      (Store.read p.framebuffer (256 * s.ppu.scanline.toNat + col)).toNat =
        (ppuRead t.cart p (BitVec.ofNat 14 address)).toNat % 64 ∧
      (∀ k, k ≠ 256 * s.ppu.scanline.toNat + col → Store.read p.framebuffer k = Store.read s.ppu.framebuffer k) ∧
      p.spr0Rendering = decide (first = some 0) ∧
      bit p.status 6 = (bit s.ppu.status 6 || (decide (bg ≠ 0) && decide (fg ≠ 0) && p.spr0Possible &&
        decide (first = some 0) && bit p.mask 3 && bit p.mask 4 && ((bit p.mask 1 && bit p.mask 2) || decide (8 ≤ col))))) ∧
    (¬ drawn → p.framebuffer = s.ppu.framebuffer ∧
      (¬ (s.ppu.scanline = -1 ∧ s.ppu.cycle = 1) → bit p.status 6 = bit s.ppu.status 6))

/-- The APU's registers, with their one effect each and nothing else. $4015: a read gives the two APU interrupt flags and
which channels are active, and clears the frame IRQ only; a write sets the enables, silences the channels it disables,
stops or restarts the DMC and clears the DMC IRQ (R423, R466). $4000 to $4013: the fields of each channel, a length loaded
from the table only while the channel is enabled (R421, R425). $4017: mode and inhibit, the counter restarted, and with
bit 7 a quarter and a half frame at once; a read there is the second pad's and changes nothing of the APU (R424). -/
def Obligations.ApuRegisters : Prop :=
  ∀ (s : State) (d : Byte),
    let r := busRead 0x4015 s
    let u := s.apu
    let n := d.toNat
    let apu (v : Apu) : State := { s with apu := v }
    let at_ (k : Nat) : State := busWrite (BitVec.ofNat 16 (0x4000 + k)) d s
    let table : List Byte :=
      [10, 254, 20, 2, 40, 4, 80, 6, 160, 8, 60, 10, 14, 12, 26, 14, 12, 16, 24, 18, 48, 20, 96, 22, 192, 24, 72, 26,
        16, 28, 32, 30]
    let length (enabled : Bool) (old : Byte) : Byte := if enabled = true then table.getD (n / 8) 0 else old
    let low (t : BitVec 11) : BitVec 11 := BitVec.ofNat 11 (t.toNat / 256 * 256 + n)
    let high (t : BitVec 11) : BitVec 11 := BitVec.ofNat 11 (n % 8 * 256 + t.toNat % 256)
    let counted (halt : Bool) (length : Byte) : Byte := if length ≠ 0 ∧ halt = false then length - 1 else length
    (r.2 = { s with apu := { u with frameIrq := false } } ∧
      bit r.1 7 = u.dmc.irq ∧ bit r.1 6 = u.frameIrq ∧ bit r.1 5 = false ∧
      (bit r.1 4 = true ↔ u.dmc.bytesRemaining ≠ 0) ∧ (bit r.1 3 = true ↔ u.noise.length ≠ 0) ∧
      (bit r.1 2 = true ↔ u.triangle.length ≠ 0) ∧ (bit r.1 1 = true ↔ u.pulse2.length ≠ 0) ∧
      (bit r.1 0 = true ↔ u.pulse1.length ≠ 0)) ∧
    at_ 0x15 = apu { u with
      pulse1 := { u.pulse1 with enabled := bit d 0, length := if bit d 0 = true then u.pulse1.length else 0 }
      pulse2 := { u.pulse2 with enabled := bit d 1, length := if bit d 1 = true then u.pulse2.length else 0 }
      triangle := { u.triangle with enabled := bit d 2, length := if bit d 2 = true then u.triangle.length else 0 }
      noise := { u.noise with enabled := bit d 3, length := if bit d 3 = true then u.noise.length else 0 }
      dmc := { u.dmc with
        irq := false
        curAddr := if bit d 4 = true ∧ u.dmc.bytesRemaining = 0 then u.dmc.sampleAddr else u.dmc.curAddr
        bytesRemaining :=
          if bit d 4 = false then 0
          else if u.dmc.bytesRemaining = 0 then u.dmc.sampleLen
          else u.dmc.bytesRemaining } } ∧
    (∀ second : Bool,
      let p := if second = true then u.pulse2 else u.pulse1
      let k := if second = true then 4 else 0
      let put (q : Pulse) : State := if second = true then apu { u with pulse2 := q } else apu { u with pulse1 := q }
      at_ k = put { p with
        duty := BitVec.ofNat 2 (n / 64), halt := bit d 5, constVol := bit d 4, vol := BitVec.ofNat 4 n } ∧
      at_ (k + 1) = put { p with
        swEn := bit d 7, swPeriod := BitVec.ofNat 3 (n / 16), swNeg := bit d 3, swShift := BitVec.ofNat 3 n
        swReload := true } ∧
      at_ (k + 2) = put { p with timer := low p.timer } ∧
      at_ (k + 3) = put { p with
        timer := high p.timer, length := length p.enabled p.length, seq := 0, env := { p.env with start := true } }) ∧
    at_ 0x08 = apu { u with triangle := { u.triangle with halt := bit d 7, linReloadVal := BitVec.ofNat 7 n } } ∧
    at_ 0x09 = s ∧
    at_ 0x0A = apu { u with triangle := { u.triangle with timer := low u.triangle.timer } } ∧
    at_ 0x0B = apu { u with triangle := { u.triangle with
      timer := high u.triangle.timer, length := length u.triangle.enabled u.triangle.length, linReload := true } } ∧
    at_ 0x0C = apu { u with noise := { u.noise with halt := bit d 5, constVol := bit d 4, vol := BitVec.ofNat 4 n } } ∧
    at_ 0x0D = s ∧
    at_ 0x0E = apu { u with noise := { u.noise with mode := bit d 7, periodIdx := BitVec.ofNat 4 n } } ∧
    at_ 0x0F = apu { u with noise := { u.noise with
      length := length u.noise.enabled u.noise.length, env := { u.noise.env with start := true } } } ∧
    at_ 0x10 = apu { u with dmc := { u.dmc with
      irqEn := bit d 7, loop := bit d 6, rateIdx := BitVec.ofNat 4 n, irq := u.dmc.irq && bit d 7 } } ∧
    at_ 0x11 = apu { u with dmc := { u.dmc with level := BitVec.ofNat 7 n } } ∧
    at_ 0x12 = apu { u with dmc := { u.dmc with sampleAddr := BitVec.ofNat 16 (0xC000 + 64 * n) } } ∧
    at_ 0x13 = apu { u with dmc := { u.dmc with sampleLen := BitVec.ofNat 12 (16 * n + 1) } } ∧
    busRead 0x4017 s = ((s.ctrl.read true).1, { s with ctrl := (s.ctrl.read true).2 }) ∧
    (let v : Apu :=
        { u with fsMode := bit d 7, irqInhibit := bit d 6, frameIrq := u.frameIrq && !bit d 6, fsCount := 0 };
      (bit d 7 = false → at_ 0x17 = apu v) ∧
      (bit d 7 = true → at_ 0x17 = apu { v with
        pulse1 := { u.pulse1.half s.cfg true with
          length := counted u.pulse1.halt u.pulse1.length, env := u.pulse1.env.clock u.pulse1.halt u.pulse1.vol }
        pulse2 := { u.pulse2.half s.cfg false with
          length := counted u.pulse2.halt u.pulse2.length, env := u.pulse2.env.clock u.pulse2.halt u.pulse2.vol }
        triangle := { u.triangle with
          length := counted u.triangle.halt u.triangle.length
          linCount := if u.triangle.linReload = true then u.triangle.linReloadVal
            else BitVec.ofNat 7 (u.triangle.linCount.toNat - 1)
          linReload := u.triangle.linReload && u.triangle.halt }
        noise := { u.noise with
          length := counted u.noise.halt u.noise.length
          env := u.noise.env.clock u.noise.halt u.noise.vol } }))

/-- The frame sequencer: at the trigger points of its mode it clocks the length counters and sweeps (half frame) and the
envelopes and the linear counter (quarter frame) and, in 4-step mode unless inhibited, sets the frame IRQ; it restarts
after 29830 or 37282 APU ticks (R430, R431, R434, R435, R437, R445). -/
def Obligations.FrameSequencer : Prop :=
  ∀ s : State, s.sysclk % 3 = 0 →
    let u := s.apu
    let t := (apuClock s).apu
    let n := u.fsCount + 1
    let half : Prop := n = 14913 ∨ (u.fsMode = false ∧ n = 29829) ∨ (u.fsMode = true ∧ n = 37281)
    let quarter : Prop := n = 7457 ∨ n = 22371 ∨ half
    let irq : Prop := u.fsMode = false ∧ u.irqInhibit = false ∧ 29828 ≤ n ∧ n ≤ 29830
    let counted (halt : Bool) (length : Byte) : Byte := if length ≠ 0 ∧ halt = false then length - 1 else length
    t.fsCount = (if n = (if u.fsMode = true then 37282 else 29830) then 0 else n) ∧
    (t.frameIrq = true ↔ u.frameIrq = true ∨ irq) ∧
    (half → t.pulse1.length = counted u.pulse1.halt u.pulse1.length ∧
      t.pulse2.length = counted u.pulse2.halt u.pulse2.length ∧
      t.triangle.length = counted u.triangle.halt u.triangle.length ∧
      t.noise.length = counted u.noise.halt u.noise.length ∧
      t.pulse1.timer = (u.pulse1.half s.cfg true).timer ∧ t.pulse2.timer = (u.pulse2.half s.cfg false).timer) ∧
    (¬ half → t.pulse1.length = u.pulse1.length ∧ t.pulse2.length = u.pulse2.length ∧
      t.triangle.length = u.triangle.length ∧ t.noise.length = u.noise.length ∧
      t.pulse1.timer = u.pulse1.timer ∧ t.pulse2.timer = u.pulse2.timer) ∧
    (quarter → t.pulse1.env = u.pulse1.env.clock u.pulse1.halt u.pulse1.vol ∧
      t.pulse2.env = u.pulse2.env.clock u.pulse2.halt u.pulse2.vol ∧
      t.noise.env = u.noise.env.clock u.noise.halt u.noise.vol ∧
      t.triangle.linCount.toNat =
        if u.triangle.linReload = true then u.triangle.linReloadVal.toNat else u.triangle.linCount.toNat - 1) ∧
    (¬ quarter → t.pulse1.env = u.pulse1.env ∧ t.pulse2.env = u.pulse2.env ∧ t.noise.env = u.noise.env ∧
      t.triangle.linCount = u.triangle.linCount)

/-- The rest of an APU tick, on every third master tick and on no other: each timer reloads at 0 and then clocks its
sequencer, a pulse's duty position, the triangle's while both its counters run, the noise register with its tap by the
mode, the DMC's output unit; the outputs the mixer takes; and the DMC reader's request for an empty buffer (R430, R441,
R449, R451, R453, R454, R456 to R458, R461, R463, R464). That the triangle's output is TRI whatever its length is the model's
reading of R454 beside R445 (log entry 22). -/
def Obligations.ApuTimersAndOutputs : Prop :=
  ∀ s : State,
    let u := s.apu
    let t := (apuClock s).apu
    let noise : List Nat := [4, 8, 16, 32, 64, 96, 128, 160, 202, 254, 380, 508, 762, 1016, 2034, 4068]
    let rate : List Nat := [428, 380, 340, 320, 286, 254, 226, 214, 190, 160, 142, 128, 106, 84, 72, 54]
    let duty : List Nat := [0b00000010, 0b00000110, 0b00011110, 0b11111001]
    let next (div period : Nat) : Nat := if div = 0 then period - 1 else div - 1
    let pulseOut (p : Pulse) (one : Bool) : BitVec 4 :=
      if p.length = 0 ∨ p.sweepMute s.cfg one = true ∨ (duty.getD p.duty.toNat 0).testBit p.seq.toNat = false then 0
      else if p.constVol = true then p.vol
      else p.env.decay
    (s.sysclk % 3 ≠ 0 → apuClock s = s) ∧
    (s.sysclk % 3 = 0 →
      t.pulse1.div = next u.pulse1.div (2 * (t.pulse1.timer.toNat + 1)) ∧
      t.pulse1.seq.toNat = (u.pulse1.seq.toNat + if u.pulse1.div = 0 then 1 else 0) % 8 ∧
      t.pulse2.div = next u.pulse2.div (2 * (t.pulse2.timer.toNat + 1)) ∧
      t.pulse2.seq.toNat = (u.pulse2.seq.toNat + if u.pulse2.div = 0 then 1 else 0) % 8 ∧
      t.triangle.div = next u.triangle.div (t.triangle.timer.toNat + 1) ∧
      t.triangle.seq.toNat = (u.triangle.seq.toNat +
        if u.triangle.div = 0 ∧ t.triangle.linCount ≠ 0 ∧ t.triangle.length ≠ 0 then 1 else 0) % 32 ∧
      t.noise.div = next u.noise.div (noise.getD u.noise.periodIdx.toNat 1) ∧
      (∀ i, i < 15 → bit t.noise.lfsr i =
        if u.noise.div ≠ 0 then bit u.noise.lfsr i
        else if i = 14 then bit u.noise.lfsr 0 ^^ bit u.noise.lfsr (if u.noise.mode = true then 6 else 1)
        else bit u.noise.lfsr (i + 1)) ∧
      (let d : Dmc := { u.dmc with div := next u.dmc.div (rate.getD u.dmc.rateIdx.toNat 1) };
        t.dmc = if u.dmc.div = 0 then d.clockOutput else d) ∧
      t.mixed.pulse1 = pulseOut t.pulse1 true ∧ t.mixed.pulse2 = pulseOut t.pulse2 false ∧
      t.mixed.triangle.toNat =
        (if t.triangle.seq.toNat < 16 then 15 - t.triangle.seq.toNat else t.triangle.seq.toNat - 16) ∧
      t.mixed.noise =
        (if bit t.noise.lfsr 0 = true ∨ t.noise.length = 0 then 0
        else if t.noise.constVol = true then t.noise.vol
        else t.noise.env.decay) ∧
      t.mixed.dmc = t.dmc.level ∧
      apuClock s = { s with
        apu := t
        cpu :=
          if t.dmc.bufferEmpty = true ∧ t.dmc.bytesRemaining ≠ 0 ∧ s.cpu.dmcFetchPending = false then
            { s.cpu with dmcFetchPending := true, dmcFetchAddr := t.dmc.curAddr }
          else s.cpu })

/-- A pulse's sweep target, from the timer `t` and its shifted value: their sum, or a difference clamped at 0, pulse 1
subtracting one more; it mutes above $7FF when not negated, or when the operand of the low test is below 8; a half frame
loads it into the timer only with the divider at 0, the sweep enabled, a shift and no mute (R446, R447, R448). An
envelope's clock: a start reloads it, a divider at 0 steps the decay down and, at 0, back to 15 when it loops; its volume
is the constant or the decay (R443). -/
def Obligations.SweepAndEnvelope : Prop :=
  (∀ (e : Envelope) (halt : Bool) (vol : BitVec 4),
    let f := e.clock halt vol
    (∀ constVol, e.volume constVol vol = if constVol = true then vol else e.decay) ∧
    f.start = false ∧
    f.div.toNat = (if e.start = true ∨ e.div = 0 then vol.toNat else e.div.toNat - 1) ∧
    f.decay.toNat =
      if e.start = true then 15
      else if e.div ≠ 0 then e.decay.toNat
      else if e.decay.toNat = 0 ∧ halt = true then 15
      else e.decay.toNat - 1) ∧
  ∀ (cfg : Config) (pulse1 : Bool) (p : Pulse),
    let t : Int := p.timer.toNat
    let c : Int := p.timer.toNat / 2 ^ p.swShift.toNat
    let target : Int := if p.swNeg = false then t + c else max 0 (t - c - (if pulse1 = true then 1 else 0))
    let low : Int := match cfg.sweepLowMuteOperand with
      | .target => target
      | .period => t
    (p.target pulse1 : Int) = target ∧
    (p.sweepMute cfg pulse1 = true ↔ (p.swNeg = false ∧ 0x7FF < target) ∨ low < 8) ∧
    (if p.swDiv = 0 ∧ p.swEn = true ∧ p.swShift ≠ 0 ∧ p.sweepMute cfg pulse1 = false then
        ((p.half cfg pulse1).timer.toNat : Int) = target
      else (p.half cfg pulse1).timer = p.timer) ∧
    (p.half cfg pulse1).swReload = false ∧
    (p.half cfg pulse1).swDiv.toNat = if p.swDiv = 0 ∨ p.swReload = true then p.swPeriod.toNat else p.swDiv.toNat - 1

/-- The DMC: a delivered byte fills the buffer and moves the address, $FFFF going to $8000, and the last one restarts a
loop or raises the IRQ; an output clock moves the level by 2 only within 0 to 127, shifts one bit out, and after the
eighth takes the buffer or falls silent (R462, R465, R466). -/
def Obligations.DmcFillAndOutput : Prop :=
  ∀ (d : Dmc) (v : Byte),
    let f := d.fill v
    let o := d.clockOutput
    let last : Bool := d.bytesRemaining == 1
    (f = { d with
      buffer := v, bufferEmpty := false
      curAddr :=
        if last && d.loop then d.sampleAddr
        else BitVec.ofNat 16 (if d.curAddr.toNat = 65535 then 32768 else d.curAddr.toNat + 1)
      bytesRemaining := if last && d.loop then d.sampleLen else d.bytesRemaining - 1
      irq := d.irq || (last && !d.loop && d.irqEn) }) ∧
    (o.level.toNat =
      if d.silence = true then d.level.toNat
      else if bit d.shift 0 = true then (if d.level.toNat + 2 ≤ 127 then d.level.toNat + 2 else d.level.toNat)
      else if 2 ≤ d.level.toNat then d.level.toNat - 2 else d.level.toNat) ∧
    (1 < d.bitsLeft →
      o = { d with level := o.level, shift := BitVec.ofNat 8 (d.shift.toNat / 2), bitsLeft := d.bitsLeft - 1 }) ∧
    (d.bitsLeft = 1 → d.bufferEmpty = true →
      o = { d with level := o.level, shift := BitVec.ofNat 8 (d.shift.toNat / 2), bitsLeft := 8, silence := true }) ∧
    (d.bitsLeft = 1 → d.bufferEmpty = false →
      o = { d with level := o.level, shift := d.buffer, bitsLeft := 8, silence := false, bufferEmpty := true })

/-- The controller ports: writing bit 0 as 1 and then as 0 to $4016 latches both pads; the k-th read after it of $4016 or
$4017 gives that pad's button bits, most significant first, then zeros; while the strobe is on every read of either gives
that pad's first button; reading either pad leaves the other's latch alone (R326, R327). -/
def Obligations.ControllerSerial : Prop :=
  ∀ (s : State) (k : Nat) (v₁ v₀ : Byte), bit v₁ 0 = true → bit v₀ 0 = false →
    let on := busWrite 0x4016 v₁ s
    let off := busWrite 0x4016 v₀ on
    let reads (a : Word) (n : Nat) (t : State) : State := (fun u => (busRead a u).2)^[n] t
    ((busRead 0x4016 (reads 0x4016 k off)).1.toNat = if k < 8 then (bit s.ctrl.buttons0 (7 - k)).toNat else 0) ∧
    ((busRead 0x4017 (reads 0x4017 k off)).1.toNat = if k < 8 then (bit s.ctrl.buttons1 (7 - k)).toNat else 0) ∧
    ((busRead 0x4017 (reads 0x4016 k off)).1.toNat = (bit s.ctrl.buttons1 7).toNat) ∧
    ((busRead 0x4016 (reads 0x4017 k off)).1.toNat = (bit s.ctrl.buttons0 7).toNat) ∧
    ((busRead 0x4016 (reads 0x4016 k on)).1.toNat = (bit s.ctrl.buttons0 7).toNat) ∧
    ((busRead 0x4017 (reads 0x4017 k on)).1.toNat = (bit s.ctrl.buttons1 7).toNat)

/-! ## The cartridge -/

/-- Inserting a cartridge: an image is rejected, and nothing changes, when its magic, its header variant, its mapper or its
PRG count is not one the core takes, or when it ends before what its header announces; else the cartridge is present with
the image's PRG and CHR, the trainer skipped, zero-filled CHR RAM for a CHR count of 0, the given PRG-RAM and the mapper's
registers at their reset values (R490 to R493, R496, R497, R549; the mirroring mapper 004 holds before its first $A000
write is a placeholder, log entry 13). -/
def Obligations.CartridgeImages : Prop :=
  ∀ (image ram : List Byte) (s : State),
    let b (i : Nat) : Nat := (image.getD i 0).toNat
    let mapper := b 7 / 16 * 16 + b 6 / 16
    let start := 16 + if b 6 / 4 % 2 = 1 then 512 else 0
    let chrStart := start + 16384 * b 4
    let loads : Prop := 16 ≤ image.length ∧ image.take 4 = [0x4E, 0x45, 0x53, 0x1A] ∧ b 7 / 4 % 4 ≠ 2 ∧ mapper ≤ 4 ∧
      b 4 ≠ 0 ∧ chrStart + 8192 * b 5 ≤ image.length
    (¬ loads → ∃ e, insertCartridge image ram s = .error e) ∧
    (loads → ∃ c, insertCartridge image ram s = .ok { s with cart := some c } ∧
      c.nPrg = b 4 ∧ c.nChr = b 5 ∧ c.chrIsRam = decide (b 5 = 0) ∧
      c.headerMirroring = (if b 6 % 2 = 1 then .vertical else .horizontal) ∧
      [Mapper.m000, .m001 ⟨0, 0, 0x0C, 0, 0, 0, false⟩, .m002 0, .m003 0,
        .m004 ⟨0, [0, 2, 4, 5, 6, 7, 0, 1], 0, 0, false, false, false, false, .vertical⟩][mapper]? = some c.mapper ∧
      (∀ i, i < 16384 * b 4 → Store.read c.prgRom i = image.getD (start + i) 0) ∧
      (∀ i, Store.read c.chr i = if i < 8192 * b 5 then image.getD (chrStart + i) 0 else 0) ∧
      (∀ i, i < 8192 → Store.read c.prgRam i = ram.getD i 0))

/-- PRG-RAM, whatever the mapper: a byte written to $6000 to $7FFF is read back there, no other byte changes, and a reset
keeps it (R497, R499). -/
def Obligations.PrgRamReadsBack : Prop :=
  ∀ (s : State) (c : Cartridge) (a b : Word) (v : Byte), s.cart = some c → 0x6000 ≤ a → a < 0x8000 →
    0x6000 ≤ b → b < 0x8000 →
    (busRead b (busWrite a v s)).1 = (if b = a then v else (busRead b s).1) ∧
    (busRead b (busReset (busWrite a v s))).1 = (if b = a then v else (busRead b s).1) ∧
    (busWrite a v s).cpu = s.cpu

/-- Mapper 001's serial port: five writes with bit 7 clear, from an empty shift register, load their bits 0, least
significant first, into the register that the fifth address selects; a write with bit 7 set empties it and sets PRG mode
3 (R511). Its banks: the 16 KB PRG bank of each half by the PRG mode, the 4 KB CHR bank of each half by the CHR mode, each
modulo the image's count (R501, R513, R514). -/
def Obligations.Mmc1SerialAndBanks : Prop :=
  (∀ (s : State) (c : Cartridge) (r : Mmc1) (a₁ a₂ a₃ a₄ a₅ : Word) (d₁ d₂ d₃ d₄ d₅ : Byte),
    s.cart = some c → c.mapper = .m001 r →
    0x8000 ≤ a₁ → 0x8000 ≤ a₂ → 0x8000 ≤ a₃ → 0x8000 ≤ a₄ → 0x8000 ≤ a₅ →
    let after (t : State) (q : Mmc1) : Prop := t.cart = some { c with mapper := .m001 q }
    (bit d₁ 7 = true → after (busWrite a₁ d₁ s) { r with sr := 0, srCount := 0, control := r.control ||| 0x0C }) ∧
    (r.srCount = 0 → (∀ d ∈ [d₁, d₂, d₃, d₄, d₅], bit d 7 = false) →
      let t := busWrite a₅ d₅ (busWrite a₄ d₄ (busWrite a₃ d₃ (busWrite a₂ d₂ (busWrite a₁ d₁ s))))
      let v : BitVec 5 := BitVec.ofNat 5 (d₁.toNat % 2 + 2 * (d₂.toNat % 2) + 4 * (d₃.toNat % 2) + 8 * (d₄.toNat % 2) +
        16 * (d₅.toNat % 2))
      (a₅ < 0xA000 → after t { r with sr := 0, control := v, ctrlLoaded := true }) ∧
      (0xA000 ≤ a₅ → a₅ < 0xC000 → after t { r with sr := 0, chr0 := v }) ∧
      (0xC000 ≤ a₅ → a₅ < 0xE000 → after t { r with sr := 0, chr1 := v }) ∧
      (0xE000 ≤ a₅ → after t { r with sr := 0, prg := v }))) ∧
  ∀ (s : State) (c : Cartridge) (r : Mmc1) (b : Word) (p : PpuAddr), s.cart = some c → c.mapper = .m001 r →
    0x8000 ≤ b → p < 0x2000 → 0 < c.nPrg → (c.chrIsRam = true ∨ 0 < c.nChr) →
    let reg := r.prg.toNat % 16
    let upper := decide (0xC000 ≤ b)
    let prgBank := match r.control.toNat / 4 % 4 with
      | 3 => if upper = true then c.nPrg - 1 else reg
      | 2 => if upper = true then reg else 0
      | _ => reg / 2 * 2 + upper.toNat
    let chrBank :=
      if bit r.control 4 = true then (if p < 0x1000 then r.chr0.toNat else r.chr1.toNat)
      else r.chr0.toNat / 2 * 2 + if p < 0x1000 then 0 else 1
    (busRead b s).1 = s.cell (.prgRom (prgBank % c.nPrg * 16384 + b.toNat % 16384)) ∧
    ppuRead s.cart s.ppu p =
      s.cell (.chr (chrBank % (2 * if c.chrIsRam = true then 1 else c.nChr) * 4096 + p.toNat % 4096))

/-- Mappers 000, 002 and 003: a write to $8000 to $FFFF sets the bank register of 002 or 003, whatever the ROM drives, and
nothing of 000, and counts a bus conflict exactly when the mapper has them and the ROM byte differs; PRG and CHR addresses
then go through the bank modulo the image's bank count, mapper 002's upper half staying on the last bank (R501, R502,
R505, R520, R525). -/
def Obligations.DiscreteMappers : Prop :=
  ∀ (s : State) (c : Cartridge) (a b : Word) (p : PpuAddr) (d : Byte), s.cart = some c → 0x8000 ≤ a → 0x8000 ≤ b →
    p < 0x2000 → 0 < c.nPrg → (c.chrIsRam = true ∨ 0 < c.nChr) →
    let t := busWrite a d s
    let conflict (m : MapperId) : Nat := if m ∈ s.cfg.busConflictMappers ∧ (busRead a s).1 ≠ d then 1 else 0
    (c.mapper = .m000 → t = { s with busConflicts := s.busConflicts + conflict .m000 } ∧
      (busRead b t).1 = s.cell (.prgRom (if 1 < c.nPrg then b.toNat % 32768 else b.toNat % 16384)) ∧
      ppuRead t.cart t.ppu p = s.cell (.chr p.toNat)) ∧
    (∀ k, c.mapper = .m002 k → t.busConflicts = s.busConflicts + conflict .m002 ∧
      (busRead b t).1 = s.cell (.prgRom (b.toNat % 16384 + 16384 *
        if b.toNat < 0xC000 then d.toNat % 16 % c.nPrg else c.nPrg - 1)) ∧
      ppuRead t.cart t.ppu p = s.cell (.chr p.toNat)) ∧
    (∀ k, c.mapper = .m003 k → t.busConflicts = s.busConflicts + conflict .m003 ∧
      (busRead b t).1 = s.cell (.prgRom (if 1 < c.nPrg then b.toNat % 32768 else b.toNat % 16384)) ∧
      ppuRead t.cart t.ppu p = s.cell (.chr (p.toNat + 8192 * (d.toNat % 4 % if c.chrIsRam = true then 1 else c.nChr))))

/-- Mapper 004. Its scanline counter: the PPU notifies it at cycle 260 of scanlines -1 to 239 while rendering is on, and
only then; it reloads from the latch at 0 or when asked, else counts down, and at 0 raises the IRQ if enabled (R385,
R541). Its registers: each 8 KB range and the address's parity choose one, a write to $E000 to $FFFF even acknowledging
the IRQ (R531, R533). Its banks: 8 KB of PRG by the PRG mode and 1 KB of CHR by the CHR inversion, each modulo the image's
count (R501, R532, R534). -/
def Obligations.Mmc3BanksAndCounter : Prop :=
  ∀ (s : State) (c : Cartridge) (r : Mmc3), s.cart = some c → c.mapper = .m004 r →
    let notified : Prop := -1 ≤ s.ppu.scanline ∧ s.ppu.scanline ≤ 239 ∧ s.ppu.cycle = 260 ∧
      (bit s.ppu.mask 3 = true ∨ bit s.ppu.mask 4 = true)
    let counter : Byte := if r.irqCounter = 0 ∨ r.irqReload = true then r.irqLatch else r.irqCounter - 1
    (notified → (ppuClock s).cart = some { c with mapper := .m004 { r with
      irqCounter := counter, irqReload := false, irq := r.irq || (r.irqEnable && counter == 0) } }) ∧
    (¬ notified → (ppuClock s).cart = some c) ∧
    (∀ (a : Word) (d : Byte), 0x8000 ≤ a →
      (busWrite a d s).cart = some { c with mapper := .m004 (
        if a < 0xA000 then
          if a.toNat % 2 = 0 then { r with bankSelect := d }
          else { r with banks := r.banks.set (r.bankSelect.toNat % 8) d }
        else if a < 0xC000 then
          if a.toNat % 2 = 0 then
            { r with mirWritten := true, mirroring := if bit d 0 = true then .horizontal else .vertical }
          else r
        else if a < 0xE000 then
          if a.toNat % 2 = 0 then { r with irqLatch := d } else { r with irqCounter := 0, irqReload := true }
        else if a.toNat % 2 = 0 then { r with irqEnable := false, irq := false }
        else { r with irqEnable := true }) }) ∧
    ∀ (b : Word) (p : PpuAddr), r.banks.length = 8 → 0x8000 ≤ b → p < 0x2000 → 0 < c.nPrg →
      (c.chrIsRam = true ∨ 0 < c.nChr) →
      let reg (i : Nat) : Nat := (r.banks.getD i 0).toNat
      let last := 2 * c.nPrg - 1
      let mode := bit r.bankSelect 6
      let prgBank :=
        if b < 0xA000 then (if mode = true then last - 1 else reg 6)
        else if b < 0xC000 then reg 7
        else if b < 0xE000 then (if mode = true then reg 6 else last - 1)
        else last
      let slot := (p.toNat / 1024 + if bit r.bankSelect 7 = true then 4 else 0) % 8
      let chrBank :=
        [reg 0 / 2 * 2, reg 0 / 2 * 2 + 1, reg 1 / 2 * 2, reg 1 / 2 * 2 + 1, reg 2, reg 3, reg 4, reg 5].getD slot 0
      (busRead b s).1 = s.cell (.prgRom (prgBank % (2 * c.nPrg) * 8192 + b.toNat % 8192)) ∧
      ppuRead s.cart s.ppu p =
        s.cell (.chr (chrBank % (8 * if c.chrIsRam = true then 1 else c.nChr) * 1024 + p.toNat % 1024))
end

