-- ==== Sys2Proof/Laws/State.lean ====
section
/-! SUPPORT. What each update of the state does to each field of it, true by `rfl`, for `simp`. -/

namespace Sys2Proof.Machine

variable (s : State)

@[simp] theorem State.setA_cpu (v : Byte) : (s.setA v).cpu = { s.cpu with a := v } := rfl
@[simp] theorem State.setA_ram (v : Byte) : (s.setA v).ram = s.ram := rfl
@[simp] theorem State.setA_ppu (v : Byte) : (s.setA v).ppu = s.ppu := rfl
@[simp] theorem State.setA_apu (v : Byte) : (s.setA v).apu = s.apu := rfl
@[simp] theorem State.setA_ctrl (v : Byte) : (s.setA v).ctrl = s.ctrl := rfl
@[simp] theorem State.setA_cart (v : Byte) : (s.setA v).cart = s.cart := rfl
@[simp] theorem State.setA_sysclk (v : Byte) : (s.setA v).sysclk = s.sysclk := rfl
@[simp] theorem State.setA_busConflicts (v : Byte) : (s.setA v).busConflicts = s.busConflicts := rfl
@[simp] theorem State.setA_cfg (v : Byte) : (s.setA v).cfg = s.cfg := rfl

@[simp] theorem State.setX_cpu (v : Byte) : (s.setX v).cpu = { s.cpu with x := v } := rfl
@[simp] theorem State.setX_ram (v : Byte) : (s.setX v).ram = s.ram := rfl
@[simp] theorem State.setX_ppu (v : Byte) : (s.setX v).ppu = s.ppu := rfl
@[simp] theorem State.setX_apu (v : Byte) : (s.setX v).apu = s.apu := rfl
@[simp] theorem State.setX_ctrl (v : Byte) : (s.setX v).ctrl = s.ctrl := rfl
@[simp] theorem State.setX_cart (v : Byte) : (s.setX v).cart = s.cart := rfl
@[simp] theorem State.setX_sysclk (v : Byte) : (s.setX v).sysclk = s.sysclk := rfl
@[simp] theorem State.setX_busConflicts (v : Byte) : (s.setX v).busConflicts = s.busConflicts := rfl
@[simp] theorem State.setX_cfg (v : Byte) : (s.setX v).cfg = s.cfg := rfl

@[simp] theorem State.setY_cpu (v : Byte) : (s.setY v).cpu = { s.cpu with y := v } := rfl
@[simp] theorem State.setY_ram (v : Byte) : (s.setY v).ram = s.ram := rfl
@[simp] theorem State.setY_ppu (v : Byte) : (s.setY v).ppu = s.ppu := rfl
@[simp] theorem State.setY_apu (v : Byte) : (s.setY v).apu = s.apu := rfl
@[simp] theorem State.setY_ctrl (v : Byte) : (s.setY v).ctrl = s.ctrl := rfl
@[simp] theorem State.setY_cart (v : Byte) : (s.setY v).cart = s.cart := rfl
@[simp] theorem State.setY_sysclk (v : Byte) : (s.setY v).sysclk = s.sysclk := rfl
@[simp] theorem State.setY_busConflicts (v : Byte) : (s.setY v).busConflicts = s.busConflicts := rfl
@[simp] theorem State.setY_cfg (v : Byte) : (s.setY v).cfg = s.cfg := rfl

@[simp] theorem State.setSP_cpu (v : Byte) : (s.setSP v).cpu = { s.cpu with sp := v } := rfl
@[simp] theorem State.setSP_ram (v : Byte) : (s.setSP v).ram = s.ram := rfl
@[simp] theorem State.setSP_ppu (v : Byte) : (s.setSP v).ppu = s.ppu := rfl
@[simp] theorem State.setSP_apu (v : Byte) : (s.setSP v).apu = s.apu := rfl
@[simp] theorem State.setSP_ctrl (v : Byte) : (s.setSP v).ctrl = s.ctrl := rfl
@[simp] theorem State.setSP_cart (v : Byte) : (s.setSP v).cart = s.cart := rfl
@[simp] theorem State.setSP_sysclk (v : Byte) : (s.setSP v).sysclk = s.sysclk := rfl
@[simp] theorem State.setSP_busConflicts (v : Byte) : (s.setSP v).busConflicts = s.busConflicts := rfl
@[simp] theorem State.setSP_cfg (v : Byte) : (s.setSP v).cfg = s.cfg := rfl

@[simp] theorem State.setPC_cpu (v : Word) : (s.setPC v).cpu = { s.cpu with pc := v } := rfl
@[simp] theorem State.setPC_ram (v : Word) : (s.setPC v).ram = s.ram := rfl
@[simp] theorem State.setPC_ppu (v : Word) : (s.setPC v).ppu = s.ppu := rfl
@[simp] theorem State.setPC_apu (v : Word) : (s.setPC v).apu = s.apu := rfl
@[simp] theorem State.setPC_ctrl (v : Word) : (s.setPC v).ctrl = s.ctrl := rfl
@[simp] theorem State.setPC_cart (v : Word) : (s.setPC v).cart = s.cart := rfl
@[simp] theorem State.setPC_sysclk (v : Word) : (s.setPC v).sysclk = s.sysclk := rfl
@[simp] theorem State.setPC_busConflicts (v : Word) : (s.setPC v).busConflicts = s.busConflicts := rfl
@[simp] theorem State.setPC_cfg (v : Word) : (s.setPC v).cfg = s.cfg := rfl

@[simp] theorem State.setP_cpu (v : Byte) : (s.setP v).cpu = { s.cpu with p := v } := rfl
@[simp] theorem State.setP_ram (v : Byte) : (s.setP v).ram = s.ram := rfl
@[simp] theorem State.setP_ppu (v : Byte) : (s.setP v).ppu = s.ppu := rfl
@[simp] theorem State.setP_apu (v : Byte) : (s.setP v).apu = s.apu := rfl
@[simp] theorem State.setP_ctrl (v : Byte) : (s.setP v).ctrl = s.ctrl := rfl
@[simp] theorem State.setP_cart (v : Byte) : (s.setP v).cart = s.cart := rfl
@[simp] theorem State.setP_sysclk (v : Byte) : (s.setP v).sysclk = s.sysclk := rfl
@[simp] theorem State.setP_busConflicts (v : Byte) : (s.setP v).busConflicts = s.busConflicts := rfl
@[simp] theorem State.setP_cfg (v : Byte) : (s.setP v).cfg = s.cfg := rfl

@[simp] theorem State.setCycles_cpu (v : Nat) : (s.setCycles v).cpu = { s.cpu with cycles := v } := rfl
@[simp] theorem State.setCycles_ram (v : Nat) : (s.setCycles v).ram = s.ram := rfl
@[simp] theorem State.setCycles_ppu (v : Nat) : (s.setCycles v).ppu = s.ppu := rfl
@[simp] theorem State.setCycles_apu (v : Nat) : (s.setCycles v).apu = s.apu := rfl
@[simp] theorem State.setCycles_ctrl (v : Nat) : (s.setCycles v).ctrl = s.ctrl := rfl
@[simp] theorem State.setCycles_cart (v : Nat) : (s.setCycles v).cart = s.cart := rfl
@[simp] theorem State.setCycles_sysclk (v : Nat) : (s.setCycles v).sysclk = s.sysclk := rfl
@[simp] theorem State.setCycles_busConflicts (v : Nat) : (s.setCycles v).busConflicts = s.busConflicts := rfl
@[simp] theorem State.setCycles_cfg (v : Nat) : (s.setCycles v).cfg = s.cfg := rfl

@[simp] theorem State.setIWindow_cpu (v : Option Bool) : (s.setIWindow v).cpu = { s.cpu with iWindow := v } := rfl
@[simp] theorem State.setIWindow_ram (v : Option Bool) : (s.setIWindow v).ram = s.ram := rfl
@[simp] theorem State.setIWindow_ppu (v : Option Bool) : (s.setIWindow v).ppu = s.ppu := rfl
@[simp] theorem State.setIWindow_apu (v : Option Bool) : (s.setIWindow v).apu = s.apu := rfl
@[simp] theorem State.setIWindow_ctrl (v : Option Bool) : (s.setIWindow v).ctrl = s.ctrl := rfl
@[simp] theorem State.setIWindow_cart (v : Option Bool) : (s.setIWindow v).cart = s.cart := rfl
@[simp] theorem State.setIWindow_sysclk (v : Option Bool) : (s.setIWindow v).sysclk = s.sysclk := rfl
@[simp] theorem State.setIWindow_busConflicts (v : Option Bool) : (s.setIWindow v).busConflicts = s.busConflicts := rfl
@[simp] theorem State.setIWindow_cfg (v : Option Bool) : (s.setIWindow v).cfg = s.cfg := rfl

@[simp] theorem State.setNZ_eq (r : Byte) : s.setNZ r = s.setP (Machine.setNZ r s.cpu.p) := rfl

@[simp] theorem State.applyPpu_cpu (r : PpuStep) :
    (s.applyPpu r).cpu = { s.cpu with nmiPending := s.cpu.nmiPending || r.nmi } := rfl
@[simp] theorem State.applyPpu_ppu (r : PpuStep) : (s.applyPpu r).ppu = r.ppu := rfl
@[simp] theorem State.applyPpu_cart (r : PpuStep) : (s.applyPpu r).cart = r.cart := rfl
@[simp] theorem State.applyPpu_ram (r : PpuStep) : (s.applyPpu r).ram = s.ram := rfl
@[simp] theorem State.applyPpu_apu (r : PpuStep) : (s.applyPpu r).apu = s.apu := rfl
@[simp] theorem State.applyPpu_ctrl (r : PpuStep) : (s.applyPpu r).ctrl = s.ctrl := rfl
@[simp] theorem State.applyPpu_sysclk (r : PpuStep) : (s.applyPpu r).sysclk = s.sysclk := rfl
@[simp] theorem State.applyPpu_busConflicts (r : PpuStep) : (s.applyPpu r).busConflicts = s.busConflicts := rfl
@[simp] theorem State.applyPpu_cfg (r : PpuStep) : (s.applyPpu r).cfg = s.cfg := rfl

@[simp] theorem State.startOamDma_cpu (v : Byte) : (s.startOamDma v).cpu =
    { s.cpu with dmaPage := v, dmaIndex := 0, dmaActive := true, dmaWait := true } := rfl
@[simp] theorem State.startOamDma_ram (v : Byte) : (s.startOamDma v).ram = s.ram := rfl
@[simp] theorem State.startOamDma_ppu (v : Byte) : (s.startOamDma v).ppu = s.ppu := rfl
@[simp] theorem State.startOamDma_apu (v : Byte) : (s.startOamDma v).apu = s.apu := rfl
@[simp] theorem State.startOamDma_ctrl (v : Byte) : (s.startOamDma v).ctrl = s.ctrl := rfl
@[simp] theorem State.startOamDma_cart (v : Byte) : (s.startOamDma v).cart = s.cart := rfl
@[simp] theorem State.startOamDma_sysclk (v : Byte) : (s.startOamDma v).sysclk = s.sysclk := rfl
@[simp] theorem State.startOamDma_busConflicts (v : Byte) : (s.startOamDma v).busConflicts = s.busConflicts := rfl
@[simp] theorem State.startOamDma_cfg (v : Byte) : (s.startOamDma v).cfg = s.cfg := rfl

@[simp] theorem State.cartWrite_cart (c : Cartridge) (a : Word) (v : Byte) :
    (s.cartWrite c a v).cart = some (c.cpuWrite a v) := rfl
@[simp] theorem State.cartWrite_cpu (c : Cartridge) (a : Word) (v : Byte) : (s.cartWrite c a v).cpu = s.cpu := rfl
@[simp] theorem State.cartWrite_ram (c : Cartridge) (a : Word) (v : Byte) : (s.cartWrite c a v).ram = s.ram := rfl
@[simp] theorem State.cartWrite_ppu (c : Cartridge) (a : Word) (v : Byte) : (s.cartWrite c a v).ppu = s.ppu := rfl
@[simp] theorem State.cartWrite_apu (c : Cartridge) (a : Word) (v : Byte) : (s.cartWrite c a v).apu = s.apu := rfl
@[simp] theorem State.cartWrite_ctrl (c : Cartridge) (a : Word) (v : Byte) : (s.cartWrite c a v).ctrl = s.ctrl := rfl
@[simp] theorem State.cartWrite_sysclk (c : Cartridge) (a : Word) (v : Byte) : (s.cartWrite c a v).sysclk = s.sysclk := rfl
@[simp] theorem State.cartWrite_cfg (c : Cartridge) (a : Word) (v : Byte) : (s.cartWrite c a v).cfg = s.cfg := rfl

@[simp] theorem mapNext_next (f : State → State) (t : State) : mapNext f (.next t) = .next (f t) := rfl
@[simp] theorem mapNext_refused (f : State → State) (r : Refusal) : mapNext f (.refused r) = .refused r := rfl

theorem mapNext_eq_next {f : State → State} {o : Outcome} {t : State} :
    mapNext f o = .next t ↔ ∃ u, o = .next u ∧ f u = t := by
  cases o <;> simp [mapNext]

@[simp] theorem finish_eq (n : Nat) : finish n s = .next (s.setCycles n) := rfl

end Sys2Proof.Machine
end

