-- ==== Sys2Proof/Laws/Store.lean ====
section
/-! SUPPORT. The laws of the sparse arrays: reading after writing, and that every operation keeps the canonical form and
the bound. -/

namespace Sys2Proof.Machine

variable {w : Nat}

theorem Store.read_erase (m : Store w) (a b : Nat) :
    Store.read (Store.erase m a) b = if b = a then 0 else Store.read m b := by
  induction m with
  | nil => simp [Store.erase, Store.read]
  | cons c m ih =>
    obtain ⟨k, v⟩ := c
    simp only [Store.erase, List.filter_cons] at ih ⊢
    by_cases hk : k = a
    · subst hk
      simp only [bne_self_eq_false, Bool.false_eq_true, if_false, ih, Store.read]
      split <;> simp_all [eq_comm]
    · have : (k != a) = true := by simpa using hk
      simp only [this, if_true, Store.read, ih]
      by_cases hb : k = b
      · subst hb; simp [hk]
      · simp [hb]

theorem Store.read_insert (m : Store w) (a : Nat) (v : BitVec w) (b : Nat) (h : ∀ c ∈ m, c.1 ≠ a) :
    Store.read (Store.insert m a v) b = if b = a then v else Store.read m b := by
  induction m with
  | nil => simp [Store.insert, Store.read, eq_comm]
  | cons c m ih =>
    obtain ⟨k, u⟩ := c
    have hk : k ≠ a := h (k, u) (by simp)
    have ih := ih (fun c hc => h c (by simp [hc]))
    simp only [Store.insert]
    split
    · simp only [Store.read, eq_comm]
    · simp only [Store.read, ih]
      by_cases hb : k = b
      · subst hb; simp [hk]
      · simp [hb]

theorem Store.mem_erase {m : Store w} {a : Nat} {c : Nat × BitVec w} :
    c ∈ Store.erase m a ↔ c ∈ m ∧ c.1 ≠ a := by simp [Store.erase]

/-- A read after a write. -/
theorem Store.read_write (m : Store w) (a b : Nat) (v : BitVec w) :
    Store.read (Store.write m a v) b = if b = a then v else Store.read m b := by
  unfold Store.write
  split
  · rename_i hv; subst hv; exact Store.read_erase m a b
  · rw [Store.read_insert _ _ _ _ (fun c hc => (Store.mem_erase.1 hc).2), Store.read_erase]
    split <;> simp_all

@[simp] theorem Store.read_write_same (m : Store w) (a : Nat) (v : BitVec w) :
    Store.read (Store.write m a v) a = v := by simp [Store.read_write]

theorem Store.read_write_other (m : Store w) (a b : Nat) (v : BitVec w) (h : b ≠ a) :
    Store.read (Store.write m a v) b = Store.read m b := by simp [Store.read_write, h]

theorem Store.mem_insert {m : Store w} {a : Nat} {v : BitVec w} {c : Nat × BitVec w} :
    c ∈ Store.insert m a v ↔ c = (a, v) ∨ c ∈ m := by
  induction m with
  | nil => simp [Store.insert]
  | cons d m ih =>
    simp only [Store.insert]
    split
    · simp
    · simp only [List.mem_cons, ih]; tauto

theorem Store.pairwise_insert {m : Store w} {a : Nat} {v : BitVec w}
    (hm : m.Pairwise (fun c d => c.1 < d.1)) (ha : ∀ c ∈ m, c.1 ≠ a) :
    (Store.insert m a v).Pairwise (fun c d => c.1 < d.1) := by
  induction m with
  | nil => simp [Store.insert]
  | cons d m ih =>
    rw [List.pairwise_cons] at hm
    have hd := ha d (by simp)
    simp only [Store.insert]
    split
    · rename_i h
      rw [List.pairwise_cons, List.pairwise_cons]
      refine ⟨?_, hm⟩
      intro c hc
      rcases List.mem_cons.1 hc with rfl | hc
      · exact h
      · exact Nat.lt_trans h (hm.1 c hc)
    · rename_i h
      rw [List.pairwise_cons]
      refine ⟨?_, ih hm.2 (fun c hc => ha c (by simp [hc]))⟩
      intro c hc
      rcases Store.mem_insert.1 hc with rfl | hc
      · simp only; omega
      · exact hm.1 c hc

theorem Store.wf_erase {m : Store w} (h : Store.wf m) (a : Nat) : Store.wf (Store.erase m a) :=
  ⟨h.1.filter _, fun c hc => h.2 c (Store.mem_erase.1 hc).1⟩

/-- A write keeps the canonical form. -/
theorem Store.wf_write {m : Store w} (h : Store.wf m) (a : Nat) (v : BitVec w) : Store.wf (Store.write m a v) := by
  have he := Store.wf_erase h a
  unfold Store.write
  split
  · exact he
  · rename_i hv
    refine ⟨Store.pairwise_insert he.1 (fun c hc => (Store.mem_erase.1 hc).2), ?_⟩
    intro c hc
    rcases Store.mem_insert.1 hc with rfl | hc
    · exact hv
    · exact he.2 c hc

/-- A write below the bound keeps the bound. -/
theorem Store.within_write {m : Store w} {n : Nat} (h : Store.within n m) {a : Nat} (ha : a < n) (v : BitVec w) :
    Store.within n (Store.write m a v) := by
  intro c hc
  unfold Store.write at hc
  split at hc
  · exact h c (Store.mem_erase.1 hc).1
  · rcases Store.mem_insert.1 hc with rfl | hc
    · exact ha
    · exact h c (Store.mem_erase.1 hc).1

theorem Store.mem_ofListFrom {l : List (BitVec w)} {k : Nat} {c : Nat × BitVec w} (hc : c ∈ Store.ofListFrom k l) :
    k ≤ c.1 ∧ c.1 < k + l.length ∧ c.2 ≠ 0 := by
  induction l generalizing k with
  | nil => simp [Store.ofListFrom] at hc
  | cons v l ih =>
    simp only [Store.ofListFrom] at hc
    split at hc
    · have := ih hc
      exact ⟨by omega, by simp only [List.length_cons]; omega, this.2.2⟩
    · rename_i hv
      rcases List.mem_cons.1 hc with rfl | hc
      · exact ⟨Nat.le_refl _, by simp only [List.length_cons]; omega, hv⟩
      · have := ih hc
        exact ⟨by omega, by simp only [List.length_cons]; omega, this.2.2⟩

/-- The array of a list is in canonical form. -/
theorem Store.wf_ofListFrom (k : Nat) (l : List (BitVec w)) : Store.wf (Store.ofListFrom k l) := by
  refine ⟨?_, fun c hc => (Store.mem_ofListFrom hc).2.2⟩
  induction l generalizing k with
  | nil => simp [Store.ofListFrom]
  | cons v l ih =>
    simp only [Store.ofListFrom]
    split
    · exact ih _
    · rw [List.pairwise_cons]
      exact ⟨fun c hc => by have := (Store.mem_ofListFrom hc).1; simp only; omega, ih _⟩

theorem Store.within_ofListFrom (l : List (BitVec w)) : Store.within l.length (Store.ofListFrom 0 l) :=
  fun c hc => by have := (Store.mem_ofListFrom hc).2.1; omega

/-- Reading the array of a list. -/
theorem Store.read_ofListFrom (k : Nat) (l : List (BitVec w)) (i : Nat) :
    Store.read (Store.ofListFrom k l) (k + i) = l.getD i 0 := by
  induction l generalizing k i with
  | nil => simp [Store.ofListFrom, Store.read]
  | cons v l ih =>
    have hnot : ∀ (j : Nat), j < k + 1 → Store.read (Store.ofListFrom (k + 1) l) j = 0 := by
      intro j hj
      have hall : ∀ c ∈ Store.ofListFrom (k + 1) l, c.1 ≠ j := fun c hc => by
        have := (Store.mem_ofListFrom hc).1; omega
      generalize Store.ofListFrom (k + 1) l = m at hall
      induction m with
      | nil => rfl
      | cons d m ihm =>
        simp only [Store.read, if_neg (hall d (by simp))]
        exact ihm (fun c hc => hall c (by simp [hc]))
    cases i with
    | zero =>
      simp only [Store.ofListFrom]
      split
      · rename_i hv; simp [hnot k (by omega), hv]
      · simp [Store.read]
    | succ i =>
      have h := ih (k + 1) i
      have e : k + 1 + i = k + (i + 1) := by omega
      rw [e] at h
      simp only [Store.ofListFrom]
      split
      · simpa using h
      · have : k ≠ k + (i + 1) := by omega
        simpa [Store.read, this] using h

end Sys2Proof.Machine
end

