-- ==== Sys2Proof/Laws/Word.lean ====
section
/-! SUPPORT. The laws of words and bytes: splitting and joining, the stack's and the zero page's addresses, single bits. -/

namespace Sys2Proof.Machine

theorem toNat_mkWord (hi lo : Byte) : (mkWord hi lo).toNat = hi.toNat * 256 + lo.toNat := by
  have h := lo.isLt
  have e : (mkWord hi lo).toNat = hi.toNat <<< 8 ||| lo.toNat := BitVec.toNat_append hi lo
  rw [e, Nat.shiftLeft_eq, Nat.mul_comm, ← Nat.two_pow_add_eq_or_of_lt h, Nat.mul_comm]

theorem toNat_lo8 (w : Word) : (lo8 w).toNat = w.toNat % 256 := by simp [lo8]

theorem toNat_hi8 (w : Word) : (hi8 w).toNat = w.toNat / 256 := by
  have := w.isLt
  simp only [hi8, BitVec.toNat_setWidth, BitVec.toNat_ushiftRight, Nat.shiftRight_eq_div_pow]
  omega

@[simp] theorem mkWord_hi8_lo8 (w : Word) : mkWord (hi8 w) (lo8 w) = w := by
  apply BitVec.eq_of_toNat_eq
  rw [toNat_mkWord, toNat_hi8, toNat_lo8]
  omega

@[simp] theorem lo8_mkWord (hi lo : Byte) : lo8 (mkWord hi lo) = lo := by
  apply BitVec.eq_of_toNat_eq
  have := lo.isLt
  rw [toNat_lo8, toNat_mkWord]
  omega

@[simp] theorem hi8_mkWord (hi lo : Byte) : hi8 (mkWord hi lo) = hi := by
  apply BitVec.eq_of_toNat_eq
  have := lo.isLt
  rw [toNat_hi8, toNat_mkWord]
  omega

theorem toNat_zext16 (b : Byte) : (zext16 b).toNat = b.toNat := by
  have := b.isLt
  simp only [zext16, BitVec.toNat_setWidth]
  omega

theorem toNat_stackAddr (sp : Byte) : (stackAddr sp).toNat = 256 + sp.toNat := by
  have := sp.isLt
  rw [stackAddr, BitVec.toNat_add, toNat_zext16, show (0x0100 : Word).toNat = 256 from rfl]
  omega

theorem ramIndex_eq (a : Word) : ramIndex a = a.toNat % 2048 := by
  unfold ramIndex
  rw [BitVec.toNat_and]
  exact Nat.and_two_pow_sub_one_eq_mod a.toNat 11

theorem ramIndex_lt (a : Word) : ramIndex a < 2048 := by
  rw [ramIndex_eq]; omega

theorem ramIndex_stackAddr (sp : Byte) : ramIndex (stackAddr sp) = 256 + sp.toNat := by
  have := sp.isLt
  rw [ramIndex_eq, toNat_stackAddr]
  omega

theorem ramIndex_zext16 (z : Byte) : ramIndex (zext16 z) = z.toNat := by
  have := z.isLt
  rw [ramIndex_eq, toNat_zext16]
  omega

theorem stackAddr_lt (sp : Byte) : stackAddr sp < 0x2000 := by
  have := sp.isLt
  rw [BitVec.lt_def, toNat_stackAddr, show (0x2000 : Word).toNat = 8192 from rfl]
  omega

theorem zext16_lt (z : Byte) : zext16 z < 0x2000 := by
  have := z.isLt
  rw [BitVec.lt_def, toNat_zext16, show (0x2000 : Word).toNat = 8192 from rfl]
  omega

/-! ## Single bits -/

theorem bit_setBit {w : Nat} (v : BitVec w) (i j : Nat) (b : Bool) :
    bit (setBit v i b) j = if j = i then decide (j < w) && b else bit v j := by
  unfold bit setBit
  by_cases hj : j < w
  · by_cases h : j = i
    · subst h
      cases b <;> simp [hj]
    · have : j - i ≠ 0 ∨ j < i := by omega
      cases b <;> simp [hj, h] <;> intros <;> omega
  · cases b <;> simp [hj, BitVec.getLsbD_of_ge _ _ (Nat.le_of_not_lt hj)]

@[simp] theorem bit_ofBit_zero (w : Nat) (b : Bool) (h : 0 < w) : bit (ofBit w b) 0 = b := by
  cases b <;> simp [bit, ofBit, h]

/-- `v[lo+len-1 : lo] <- x`, bit by bit. -/
theorem bit_putField {w len : Nat} (v : BitVec w) (lo : Nat) (x : BitVec len) (h : lo + len ≤ w) (i : Nat) :
    bit (putField v lo x) i = if lo ≤ i ∧ i < lo + len then bit x (i - lo) else bit v i := by
  unfold bit putField
  simp only [BitVec.getLsbD_or, BitVec.getLsbD_and, BitVec.getLsbD_not, BitVec.getLsbD_shiftLeft,
    BitVec.getLsbD_setWidth, BitVec.getLsbD_allOnes]
  by_cases h1 : lo ≤ i ∧ i < lo + len
  · have h2 : i < w := by omega
    have h3 : ¬ i < lo := by omega
    have h4 : i - lo < w := by omega
    have h5 : i - lo < len := by omega
    simp [h1, h2, h3, h4, h5]
  · rw [if_neg h1]
    by_cases h2 : i < w
    · by_cases h3 : i < lo
      · simp [h2, h3]
      · have h5 : ¬ i - lo < len := by omega
        simp [h2, h3, h5, BitVec.getLsbD_of_ge x (i - lo) (by omega)]
    · simp [BitVec.getLsbD_of_ge v i (by omega), h2]

/-- `v[lo+len-1 : lo]`, bit by bit. -/
theorem bit_field {w : Nat} (v : BitVec w) (lo len i : Nat) :
    bit (field v lo len) i = (decide (i < len) && bit v (lo + i)) := by simp [bit, field]

/-- `v[lo+len-1 : lo]` as a number. -/
theorem toNat_field {w : Nat} (v : BitVec w) (lo len : Nat) :
    (field v lo len).toNat = v.toNat / 2 ^ lo % 2 ^ len := by
  simp [field, Nat.shiftRight_eq_div_pow]

/-- `v[lo+len-1 : lo] <- x` as a number. -/
theorem toNat_putField {w len : Nat} (v : BitVec w) (lo : Nat) (x : BitVec len) (h : lo + len ≤ w) :
    (putField v lo x).toNat = v.toNat / 2 ^ (lo + len) * 2 ^ (lo + len) + x.toNat * 2 ^ lo + v.toNat % 2 ^ lo := by
  have hb : ∀ i, (putField v lo x).toNat.testBit i =
      if lo ≤ i ∧ i < lo + len then x.toNat.testBit (i - lo) else v.toNat.testBit i := bit_putField v lo x h
  have e : v.toNat / 2 ^ (lo + len) * 2 ^ (lo + len) + x.toNat * 2 ^ lo + v.toNat % 2 ^ lo =
      2 ^ (lo + len) * (v.toNat / 2 ^ (lo + len)) + (2 ^ lo * x.toNat + v.toNat % 2 ^ lo) := by ring
  have h1 : v.toNat % 2 ^ lo < 2 ^ lo := Nat.mod_lt _ (by positivity)
  have h2 : 2 ^ lo * x.toNat + v.toNat % 2 ^ lo < 2 ^ (lo + len) := by
    have := x.isLt
    rw [pow_add]; nlinarith [Nat.mul_le_mul_left (2 ^ lo) (Nat.succ_le_of_lt this)]
  apply Nat.eq_of_testBit_eq
  intro i
  rw [hb, e, Nat.testBit_two_pow_mul_add _ h2, Nat.testBit_two_pow_mul_add _ h1, Nat.testBit_mod_two_pow,
    Nat.testBit_div_two_pow]
  by_cases c1 : i < lo + len <;> by_cases c2 : i < lo
  · have c3 : ¬ lo ≤ i := by omega
    simp [c1, c2, c3]
  · have c3 : lo ≤ i := by omega
    simp [c1, c2, c3]
  · omega
  · simp [c1]
    congr 1; omega

/-- Setting one bit is putting a field of one bit. -/
theorem setBit_eq_putField {w : Nat} (v : BitVec w) (i : Nat) (b : Bool) (h : i < w) :
    setBit v i b = putField v i (ofBit 1 b) := by
  apply BitVec.eq_of_getLsbD_eq
  intro j hj
  have e := bit_setBit v i j b
  have e' := bit_putField v i (ofBit 1 b) h j
  unfold bit at e e'
  rw [e, e']
  by_cases hji : j = i
  · subst hji
    cases b <;> simp [hj, ofBit]
  · rw [if_neg hji, if_neg (by omega)]

end Sys2Proof.Machine
end

