-- ==== Sys2Proof/Laws/Bus.lean ====
section
/-! SUPPORT. What one bus access can do: a read changes no register and no memory cell, a write changes the one cell that
`storedCell` names and no register of the program. -/

namespace Sys2Proof.Machine

variable (a : Word) (v : Byte) (s : State)

/-! ## The cartridge's claims -/

theorem Cartridge.cpuRead_low (c : Cartridge) {a : Word} (h : a < 0x6000) : c.cpuRead a = none := by
  rw [Cartridge.cpuRead, Cartridge.cpuMapRead, if_pos h, Option.map_none]

theorem busRead_low {a : Word} (h : a < 0x6000) : busRead a s = deviceRead a s := by
  unfold busRead
  cases hc : s.cart with
  | none => rfl
  | some c => simp [Cartridge.cpuRead_low c h]

theorem busWrite_low {a : Word} (h : a < 0x6000) : busWrite a v s = deviceWrite a v s := by
  unfold busWrite
  cases hc : s.cart with
  | none => rfl
  | some c => simp only; rw [if_neg (by rw [BitVec.not_le]; exact h)]

theorem lt_trans_6000 {a : Word} (h : a < 0x2000) : a < 0x6000 := by
  rw [BitVec.lt_def] at *
  exact Nat.lt_trans h (by decide)

/-- A read of RAM (R72). -/
theorem busRead_ram {a : Word} (h : a < 0x2000) : busRead a s = (Store.read s.ram (ramIndex a), s) := by
  rw [busRead_low s (lt_trans_6000 h), deviceRead, if_pos h]

/-- A write of RAM (R72). -/
theorem busWrite_ram {a : Word} (h : a < 0x2000) :
    busWrite a v s = { s with ram := Store.write s.ram (ramIndex a) v } := by
  rw [busWrite_low v s (lt_trans_6000 h), deviceWrite, if_pos h]

/-- Below the cartridge nothing claims $6000 and above for a write (R75). -/
theorem deviceWrite_high {a : Word} (h : 0x6000 ≤ a) : deviceWrite a v s = s := by
  have e : ∀ n : Word, n < 0x6000 → ¬ a < n ∧ a ≠ n := by
    intro n hn
    simp only [BitVec.le_def, BitVec.lt_def] at *
    exact ⟨by omega, fun h' => by subst h'; omega⟩
  rw [deviceWrite, if_neg (e 0x2000 (by decide)).1, if_neg (e 0x4000 (by decide)).1, if_neg (e 0x4014 (by decide)).1,
    if_neg (e 0x4014 (by decide)).2, if_neg (e 0x4015 (by decide)).2, if_neg (e 0x4016 (by decide)).2,
    if_neg (e 0x4017 (by decide)).2]

/-! ## Reads -/

theorem Ppu.readReg_keeps (c : Option Cartridge) (p : Ppu) (reg : BitVec 3) :
    (p.readReg c reg).2.nametable = p.nametable ∧ (p.readReg c reg).2.palette = p.palette ∧
    (p.readReg c reg).2.oam = p.oam ∧ (p.readReg c reg).2.patternRam = p.patternRam := by
  unfold Ppu.readReg
  split
  · simp [Ppu.readStatus]
  · split
    · simp
    · split
      · simp [Ppu.readData, Ppu.stepV]
      · simp

theorem deviceRead_frame : (deviceRead a s).2.cpu = s.cpu ∧ (deviceRead a s).2.ram = s.ram ∧
    (deviceRead a s).2.cart = s.cart ∧ (deviceRead a s).2.sysclk = s.sysclk ∧
    (deviceRead a s).2.busConflicts = s.busConflicts ∧ (deviceRead a s).2.cfg = s.cfg := by
  unfold deviceRead
  repeat' split
  all_goals simp

theorem busRead_frame : (busRead a s).2.cpu = s.cpu ∧ (busRead a s).2.ram = s.ram ∧
    (busRead a s).2.cart = s.cart ∧ (busRead a s).2.sysclk = s.sysclk ∧
    (busRead a s).2.busConflicts = s.busConflicts ∧ (busRead a s).2.cfg = s.cfg := by
  unfold busRead
  split
  · simp
  · exact deviceRead_frame a s

@[simp] theorem busRead_cpu : (busRead a s).2.cpu = s.cpu := (busRead_frame a s).1
@[simp] theorem busRead_ram' : (busRead a s).2.ram = s.ram := (busRead_frame a s).2.1
@[simp] theorem busRead_cart : (busRead a s).2.cart = s.cart := (busRead_frame a s).2.2.1
@[simp] theorem busRead_sysclk : (busRead a s).2.sysclk = s.sysclk := (busRead_frame a s).2.2.2.1
@[simp] theorem busRead_busConflicts : (busRead a s).2.busConflicts = s.busConflicts := (busRead_frame a s).2.2.2.2.1
@[simp] theorem busRead_cfg : (busRead a s).2.cfg = s.cfg := (busRead_frame a s).2.2.2.2.2

/-- A read keeps the PPU's memories. -/
theorem busRead_ppu_memory : (busRead a s).2.ppu.nametable = s.ppu.nametable ∧
    (busRead a s).2.ppu.palette = s.ppu.palette ∧ (busRead a s).2.ppu.oam = s.ppu.oam ∧
    (busRead a s).2.ppu.patternRam = s.ppu.patternRam := by
  unfold busRead
  split
  · simp
  · unfold deviceRead
    repeat' split
    all_goals first
      | exact ⟨rfl, rfl, rfl, rfl⟩
      | (rename_i h; have := Ppu.readReg_keeps s.cart s.ppu (field a 0 3); simp_all)

/-- A read changes no memory cell. -/
@[simp] theorem busRead_cell (c : MemCell) : (busRead a s).2.cell c = s.cell c := by
  obtain ⟨h1, h2, h3, h4⟩ := busRead_ppu_memory a s
  cases c <;> simp [State.cell, h1, h2, h3, h4]

/-! ## Writes -/

/-- What a CPU write can change of the CPU: the NMI latch and the OAM DMA's state. -/
theorem busWrite_cpu : ∃ nmi active wait page index, (busWrite a v s).cpu =
    { s.cpu with nmiPending := nmi, dmaActive := active, dmaWait := wait, dmaPage := page, dmaIndex := index } := by
  have hd : ∃ nmi active wait page index, (deviceWrite a v s).cpu =
      { s.cpu with nmiPending := nmi, dmaActive := active, dmaWait := wait, dmaPage := page, dmaIndex := index } := by
    unfold deviceWrite
    repeat' split
    all_goals first
      | exact ⟨_, _, _, _, _, rfl⟩
  unfold busWrite
  split
  · split
    · exact ⟨_, _, _, _, _, rfl⟩
    · exact hd
  · exact hd

@[simp] theorem busWrite_a : (busWrite a v s).cpu.a = s.cpu.a := by
  obtain ⟨_, _, _, _, _, h⟩ := busWrite_cpu a v s; rw [h]
@[simp] theorem busWrite_x : (busWrite a v s).cpu.x = s.cpu.x := by
  obtain ⟨_, _, _, _, _, h⟩ := busWrite_cpu a v s; rw [h]
@[simp] theorem busWrite_y : (busWrite a v s).cpu.y = s.cpu.y := by
  obtain ⟨_, _, _, _, _, h⟩ := busWrite_cpu a v s; rw [h]
@[simp] theorem busWrite_sp : (busWrite a v s).cpu.sp = s.cpu.sp := by
  obtain ⟨_, _, _, _, _, h⟩ := busWrite_cpu a v s; rw [h]
@[simp] theorem busWrite_pc : (busWrite a v s).cpu.pc = s.cpu.pc := by
  obtain ⟨_, _, _, _, _, h⟩ := busWrite_cpu a v s; rw [h]
@[simp] theorem busWrite_p : (busWrite a v s).cpu.p = s.cpu.p := by
  obtain ⟨_, _, _, _, _, h⟩ := busWrite_cpu a v s; rw [h]
@[simp] theorem busWrite_cycles : (busWrite a v s).cpu.cycles = s.cpu.cycles := by
  obtain ⟨_, _, _, _, _, h⟩ := busWrite_cpu a v s; rw [h]
@[simp] theorem busWrite_iWindow : (busWrite a v s).cpu.iWindow = s.cpu.iWindow := by
  obtain ⟨_, _, _, _, _, h⟩ := busWrite_cpu a v s; rw [h]

theorem deviceWrite_cfg : (deviceWrite a v s).cfg = s.cfg := by
  unfold deviceWrite
  repeat' split
  all_goals rfl

@[simp] theorem busWrite_cfg : (busWrite a v s).cfg = s.cfg := by
  unfold busWrite
  split
  · split
    · rfl
    · exact deviceWrite_cfg a v s
  · exact deviceWrite_cfg a v s

theorem deviceWrite_sysclk : (deviceWrite a v s).sysclk = s.sysclk := by
  unfold deviceWrite
  repeat' split
  all_goals rfl

@[simp] theorem busWrite_sysclk : (busWrite a v s).sysclk = s.sysclk := by
  unfold busWrite
  split
  · split
    · rfl
    · exact deviceWrite_sysclk a v s
  · exact deviceWrite_sysclk a v s

/-! ## What a write does to the memory cells -/

theorem ppuWrite_cell (b : PpuAddr) (d : Byte) (c : MemCell) :
    ({ s with ppu := (ppuWrite s.cart s.ppu b d).2.stepV, cart := (ppuWrite s.cart s.ppu b d).1 } : State).cell c =
      if ppuCell s.cart b = some c then d else s.cell c := by
  unfold ppuWrite ppuCell
  by_cases h : b ≤ 0x1FFF
  · simp only [h, if_true]
    cases hc : s.cart with
    | none =>
      simp only [Ppu.stepV]
      cases c <;> simp [State.cell, hc, Store.read_write, eq_comm]
    | some k =>
      simp only [Ppu.stepV, Cartridge.ppuWrite]
      by_cases hr : k.chrIsRam
      · simp only [hr, if_true]
        cases c <;> simp [State.cell, hc, Store.read_write, eq_comm]
      · simp only [hr]
        cases c <;> simp [State.cell, hc]
  · simp only [h, if_false]
    by_cases h' : b ≤ 0x3EFF
    · simp only [h', if_true, Ppu.stepV]
      cases c <;> simp [State.cell, Store.read_write, eq_comm]
    · simp only [h', if_false, Ppu.stepV]
      cases c <;> simp [State.cell, Store.read_write, eq_comm]

theorem bv3_cases (r : BitVec 3) : r = 0 ∨ r = 1 ∨ r = 2 ∨ r = 3 ∨ r = 4 ∨ r = 5 ∨ r = 6 ∨ r = 7 := by
  revert r; decide

theorem applyPpu_cell (r : PpuStep) (c : MemCell) (hc : r.cart = s.cart) (hn : r.ppu.nametable = s.ppu.nametable)
    (hp : r.ppu.palette = s.ppu.palette) (ho : r.ppu.oam = s.ppu.oam) (hr : r.ppu.patternRam = s.ppu.patternRam) :
    (s.applyPpu r).cell c = s.cell c := by
  cases c <;> simp [State.cell, hc, hn, hp, ho, hr]

theorem writeReg_cell (reg : BitVec 3) (d : Byte) (c : MemCell) :
    (s.applyPpu (s.ppu.writeReg s.cfg s.cart reg d)).cell c =
      if (if reg = 4 then some (MemCell.oam s.ppu.oamaddr.toNat)
          else if reg = 7 then ppuCell s.cart (s.ppu.v.setWidth 14) else none) = some c
      then d else s.cell c := by
  rcases bv3_cases reg with rfl | rfl | rfl | rfl | rfl | rfl | rfl | rfl
  · exact applyPpu_cell s _ c rfl rfl rfl rfl rfl
  · exact applyPpu_cell s _ c rfl rfl rfl rfl rfl
  · exact applyPpu_cell s _ c rfl rfl rfl rfl rfl
  · exact applyPpu_cell s _ c rfl rfl rfl rfl rfl
  · cases c <;> simp [Ppu.writeReg, Ppu.writeOamData, State.cell, Store.read_write, eq_comm]
  · have e : s.ppu.writeReg s.cfg s.cart 5 d = ⟨s.ppu.writeScroll d, s.cart, false⟩ := rfl
    rw [e]
    apply applyPpu_cell <;> simp only [Ppu.writeScroll] <;> split <;> rfl
  · have e : s.ppu.writeReg s.cfg s.cart 6 d = ⟨s.ppu.writeAddr d, s.cart, false⟩ := rfl
    rw [e]
    apply applyPpu_cell <;> simp only [Ppu.writeAddr] <;> split <;> rfl
  · have h := ppuWrite_cell s (s.ppu.v.setWidth 14) d c
    have e : s.ppu.writeReg s.cfg s.cart 7 d = ⟨(ppuWrite s.cart s.ppu (s.ppu.v.setWidth 14) d).2.stepV,
      (ppuWrite s.cart s.ppu (s.ppu.v.setWidth 14) d).1, false⟩ := rfl
    rw [e]
    cases c <;> exact h

/-- A write changes the cell that `storedCell` names, to the byte written, and no other cell. -/
theorem busWrite_cell (c : MemCell) :
    (busWrite a v s).cell c = if storedCell a s = some c then v else s.cell c := by
  have low : a < 0x6000 → (deviceWrite a v s).cell c = if storedCell a s = some c then v else s.cell c := by
    intro hlow
    unfold deviceWrite storedCell
    by_cases h1 : a < 0x2000
    · simp only [h1, if_true]
      cases c <;> simp [State.cell, Store.read_write, eq_comm]
    · simp only [h1, if_false]
      by_cases h2 : a < 0x4000
      · simp only [h2, if_true]
        exact writeReg_cell s _ v c
      · have h3 : ¬ (0x6000 ≤ a) := by rw [BitVec.not_le]; exact hlow
        simp only [h2, if_false, h3, false_and, reduceCtorEq]
        repeat' split
        all_goals first
          | contradiction
          | (cases c <;> simp [State.cell, State.startOamDma])
  by_cases hlow : a < 0x6000
  · rw [busWrite_low v s hlow, low hlow]
  · have h1 : ¬ a < 0x2000 := fun h => hlow (lt_trans_6000 h)
    have h2 : ¬ a < 0x4000 := fun h => hlow (by rw [BitVec.lt_def] at *; exact Nat.lt_trans h (by decide))
    have h6 : 0x6000 ≤ a := by rwa [BitVec.not_lt] at hlow
    unfold busWrite storedCell
    cases hc : s.cart with
    | none =>
      simp only [h1, h2, if_false, Option.isSome_none, Bool.false_eq_true, and_false, reduceCtorEq]
      rw [deviceWrite_high _ _ h6]
    | some k =>
      simp only [h1, h2, h6, if_true, if_false, Option.isSome_some, true_and, and_true]
      simp only [State.cartWrite, Cartridge.cpuWrite]
      split
      · cases c <;> simp [State.cell, hc, Store.read_write, eq_comm]
      · cases c <;> simp [State.cell, hc]

/-- A read does not look at the CPU: it commutes with any change of the CPU's state. -/
theorem busRead_withCpu (k : Cpu) : busRead a { s with cpu := k } =
    ((busRead a s).1, { (busRead a s).2 with cpu := k }) := by
  unfold busRead
  dsimp only
  cases s.cart.bind (·.cpuRead a) with
  | some b => rfl
  | none =>
    unfold deviceRead
    dsimp only
    repeat' split
    all_goals rfl

/-- From $6000 on only the cartridge answers, without side effects (R75, R498). -/
theorem busRead_high (h : 0x6000 ≤ a) :
    busRead a s = ((match s.cart with | some c => (c.cpuRead a).getD 0 | none => 0), s) := by
  unfold busRead
  cases hc : s.cart with
  | none =>
    have e : deviceRead a s = (0, s) := by
      have h' := h
      rw [BitVec.le_def, show (0x6000 : Word).toNat = 24576 from rfl] at h'
      unfold deviceRead
      rw [if_neg, if_neg, if_neg, if_neg, if_neg]
      iterate 3
        rintro rfl
        revert h
        decide
      · rw [BitVec.lt_def, show (0x4000 : Word).toNat = 16384 from rfl]; omega
      · rw [BitVec.lt_def, show (0x2000 : Word).toNat = 8192 from rfl]; omega
    simpa using e
  | some c =>
    obtain ⟨b, hb⟩ : ∃ b, c.cpuRead a = some b := by
      unfold Cartridge.cpuRead Cartridge.cpuMapRead
      rw [if_neg (by rw [BitVec.not_lt]; exact h)]
      split <;> exact ⟨_, rfl⟩
    simp [hb]

end Sys2Proof.Machine
end

