-- ==== Sys2Proof/Laws/Flags.lean ====
section
/-! SUPPORT. The bits of P after each flag computation. -/

namespace Sys2Proof.Machine

variable (b : Bool) (p r m v : Byte)

/-! ## Setting one flag -/

theorem bit_setC (i : Nat) : bit (setC b p) i = if i = 0 then b else bit p i := by
  by_cases h : i = 0 <;> simp [setC, bit_setBit, h]
theorem bit_setZ (i : Nat) : bit (setZ b p) i = if i = 1 then b else bit p i := by
  by_cases h : i = 1 <;> simp [setZ, bit_setBit, h]
theorem bit_setI (i : Nat) : bit (setI b p) i = if i = 2 then b else bit p i := by
  by_cases h : i = 2 <;> simp [setI, bit_setBit, h]
theorem bit_setD (i : Nat) : bit (setD b p) i = if i = 3 then b else bit p i := by
  by_cases h : i = 3 <;> simp [setD, bit_setBit, h]
theorem bit_setU (i : Nat) : bit (setU b p) i = if i = 5 then b else bit p i := by
  by_cases h : i = 5 <;> simp [setU, bit_setBit, h]
theorem bit_setV (i : Nat) : bit (setV b p) i = if i = 6 then b else bit p i := by
  by_cases h : i = 6 <;> simp [setV, bit_setBit, h]
theorem bit_setN (i : Nat) : bit (setN b p) i = if i = 7 then b else bit p i := by
  by_cases h : i = 7 <;> simp [setN, bit_setBit, h]

/-- `SetNZ` (R12): bit by bit. -/
theorem bit_setNZ (i : Nat) :
    bit (setNZ r p) i = if i = 7 then bit r 7 else if i = 1 then r == 0 else bit p i := by
  simp only [setNZ, bit_setN, bit_setZ]

/-- The pulled status (R229): bits 4 and 5 are fixed, the others come from the stack. -/
theorem bit_pulledP (i : Nat) (hi : i < 8) :
    bit (pulledP v) i = if i = 4 then false else if i = 5 then true else bit v i := by
  unfold pulledP bit
  rcases (by omega : i = 0 ∨ i = 1 ∨ i = 2 ∨ i = 3 ∨ i = 4 ∨ i = 5 ∨ i = 6 ∨ i = 7) with
    rfl | rfl | rfl | rfl | rfl | rfl | rfl | rfl <;> simp

/-- The pushed status (R28): bit 4 tells BRK and PHP from NMI and IRQ, bit 5 is 1, the others are P's. -/
theorem bit_pushedP (i : Nat) (hi : i < 8) :
    bit (pushedP b p) i = if i = 4 then b else if i = 5 then true else bit p i := by
  unfold pushedP bit
  rcases (by omega : i = 0 ∨ i = 1 ∨ i = 2 ∨ i = 3 ∨ i = 4 ∨ i = 5 ∨ i = 6 ∨ i = 7) with
    rfl | rfl | rfl | rfl | rfl | rfl | rfl | rfl <;> cases b <;> simp

/-! ## The bits B and U, which no flag computation changes -/

/-- P's bits 4 and 5 agree in two status bytes. -/
def SameBU (p q : Byte) : Prop := flagB q = flagB p ∧ flagU q = flagU p

theorem SameBU.refl : SameBU p p := ⟨rfl, rfl⟩

theorem sameBU_setNZ {q : Byte} (h : SameBU q p) : SameBU q (setNZ r p) := by
  simpa [SameBU, flagB, flagU, bit_setNZ] using h
theorem sameBU_setC {q : Byte} (h : SameBU q p) : SameBU q (setC b p) := by
  simpa [SameBU, flagB, flagU, bit_setC] using h
theorem sameBU_setI {q : Byte} (h : SameBU q p) : SameBU q (setI b p) := by
  simpa [SameBU, flagB, flagU, bit_setI] using h
theorem sameBU_setD {q : Byte} (h : SameBU q p) : SameBU q (setD b p) := by
  simpa [SameBU, flagB, flagU, bit_setD] using h
theorem sameBU_setV {q : Byte} (h : SameBU q p) : SameBU q (setV b p) := by
  simpa [SameBU, flagB, flagU, bit_setV] using h

theorem sameBU_addWithCarry (a : Byte) : SameBU p (addWithCarry a m p).2 :=
  sameBU_setNZ _ _ (sameBU_setV _ _ (sameBU_setC _ _ (.refl p)))
theorem sameBU_subWithBorrow (a : Byte) : SameBU p (subWithBorrow a m p).2 := sameBU_addWithCarry _ _ _
theorem sameBU_comparedP : SameBU p (comparedP r m p) := sameBU_setNZ _ _ (sameBU_setC _ _ (.refl p))
theorem sameBU_bitTestP (a : Byte) : SameBU p (bitTestP a m p) := by
  simp [SameBU, flagB, flagU, bitTestP, bit_setV, bit_setN, bit_setZ]
theorem sameBU_incByte (m p : Byte) : SameBU p (incByte m p).2 := sameBU_setNZ _ _ (.refl p)
theorem sameBU_decByte (m p : Byte) : SameBU p (decByte m p).2 := sameBU_setNZ _ _ (.refl p)
theorem sameBU_aslByte (m p : Byte) : SameBU p (aslByte m p).2 := sameBU_setNZ _ _ (sameBU_setC _ _ (.refl p))
theorem sameBU_lsrByte (m p : Byte) : SameBU p (lsrByte m p).2 := sameBU_setNZ _ _ (sameBU_setC _ _ (.refl p))
theorem sameBU_rolByte (m p : Byte) : SameBU p (rolByte m p).2 := sameBU_setNZ _ _ (sameBU_setC _ _ (.refl p))
theorem sameBU_rorByte (m p : Byte) : SameBU p (rorByte m p).2 := sameBU_setNZ _ _ (sameBU_setC _ _ (.refl p))

end Sys2Proof.Machine
end

