-- ==== Sys2Proof/Laws/Operands.lean ====
section
/-! SUPPORT. What the operand forms do: an addressing mode only reads, so it leaves the registers, RAM, the cartridge and
every memory cell as they are; and what each class of operation answers. -/

namespace Sys2Proof.Machine

/-- What bus reads leave alone: the CPU, RAM, the cartridge, the bus's counters, the configuration and every memory
cell. -/
structure OnlyRead (s t : State) : Prop where
  cpu : t.cpu = s.cpu
  ram : t.ram = s.ram
  cart : t.cart = s.cart
  sysclk : t.sysclk = s.sysclk
  busConflicts : t.busConflicts = s.busConflicts
  cfg : t.cfg = s.cfg
  cell : ∀ c, t.cell c = s.cell c

theorem OnlyRead.refl (s : State) : OnlyRead s s := ⟨rfl, rfl, rfl, rfl, rfl, rfl, fun _ => rfl⟩

theorem OnlyRead.trans {s t u : State} (h : OnlyRead s t) (h' : OnlyRead t u) : OnlyRead s u :=
  ⟨h'.cpu.trans h.cpu, h'.ram.trans h.ram, h'.cart.trans h.cart, h'.sysclk.trans h.sysclk,
    h'.busConflicts.trans h.busConflicts, h'.cfg.trans h.cfg, fun c => (h'.cell c).trans (h.cell c)⟩

theorem onlyRead_busRead (a : Word) (s : State) : OnlyRead s (busRead a s).2 :=
  ⟨busRead_cpu a s, busRead_ram' a s, busRead_cart a s, busRead_sysclk a s, busRead_busConflicts a s, busRead_cfg a s,
    busRead_cell a s⟩

variable (cls : AccessClass) (z : Byte) (w : Word) (s : State)

theorem onlyRead_indexed (i : Byte) : OnlyRead s (indexed cls w i s).st := by
  unfold indexed
  dsimp only
  split
  · exact onlyRead_busRead _ s
  · exact .refl s

theorem onlyRead_atAbx : OnlyRead s (atAbx cls w s).st := onlyRead_indexed cls w s _
theorem onlyRead_atAby : OnlyRead s (atAby cls w s).st := onlyRead_indexed cls w s _

/-- A zero-page pointer is two bytes of RAM, and reading it changes nothing (R110, R111). -/
theorem zeroPagePointer_eq : zeroPagePointer z s =
    (mkWord (Store.read s.ram (z + 1).toNat) (Store.read s.ram z.toNat), s) := by
  unfold zeroPagePointer
  simp only [busRead_ram s (zext16_lt z), busRead_ram s (zext16_lt (z + 1)), ramIndex_zext16]

theorem onlyRead_atIzx : OnlyRead s (atIzx z s).st := by
  unfold atIzx
  rw [zeroPagePointer_eq]
  exact .refl s

theorem atIzy_eq : atIzy cls z s =
    indexed cls (mkWord (Store.read s.ram (z + 1).toNat) (Store.read s.ram z.toNat)) s.cpu.y s := by
  unfold atIzy
  rw [zeroPagePointer_eq]

theorem onlyRead_atIzy : OnlyRead s (atIzy cls z s).st := by
  rw [atIzy_eq]
  exact onlyRead_indexed _ _ _ _

theorem onlyRead_atInd : OnlyRead s (atInd w s).st := (onlyRead_busRead _ _).trans (onlyRead_busRead _ _)

/-! ## The stack -/

/-- A push is one byte of page 1 of RAM and SP (R24). -/
theorem push_eq (v : Byte) : push v s =
    { s with ram := Store.write s.ram (256 + s.cpu.sp.toNat) v, cpu := { s.cpu with sp := s.cpu.sp - 1 } } := by
  unfold push
  rw [busWrite_ram v s (stackAddr_lt _), ramIndex_stackAddr]
  rfl

/-- A pull is one byte of page 1 of RAM and SP (R24). -/
theorem pull_eq : pull s = (Store.read s.ram (256 + (s.cpu.sp + 1).toNat), s.setSP (s.cpu.sp + 1)) := by
  unfold pull
  dsimp only
  rw [busRead_ram _ (stackAddr_lt _), ramIndex_stackAddr]
  rfl

/-- Pushing a word: high byte at SP, low byte below it (R251). -/
theorem pushWord_eq : pushWord w s =
    { s with
      ram := Store.write (Store.write s.ram (256 + s.cpu.sp.toNat) (hi8 w)) (256 + (s.cpu.sp - 1).toNat) (lo8 w)
      cpu := { s.cpu with sp := s.cpu.sp - 1 - 1 } } := by
  unfold pushWord
  rw [push_eq, push_eq]

/-- Pulling a word: low byte first (R252). -/
theorem pullWord_eq : pullWord s =
    (mkWord (Store.read s.ram (256 + (s.cpu.sp + 1 + 1).toNat)) (Store.read s.ram (256 + (s.cpu.sp + 1).toNat)),
      s.setSP (s.cpu.sp + 1 + 1)) := by
  unfold pullWord
  rw [pull_eq]
  dsimp only
  rw [pull_eq]
  rfl

theorem onlyRead_readWord : OnlyRead s (readWord w s).2 := (onlyRead_busRead _ _).trans (onlyRead_busRead _ _)

/-- Taking an exception, in full (R301, R254): three bytes on the stack, I set, then the vector's two reads. -/
theorem takeException_eq (brk : Bool) : takeException w brk s =
    let u : State := { s with
      ram := Store.write (Store.write (Store.write s.ram (256 + s.cpu.sp.toNat) (hi8 s.cpu.pc))
        (256 + (s.cpu.sp - 1).toNat) (lo8 s.cpu.pc)) (256 + (s.cpu.sp - 1 - 1).toNat) (pushedP brk s.cpu.p)
      cpu := { s.cpu with sp := s.cpu.sp - 1 - 1 - 1, p := setI true s.cpu.p } }
    (readWord w u).2.setPC (readWord w u).1 := by
  unfold takeException
  dsimp only
  rw [pushWord_eq, push_eq]
  rfl

/-- Returning from an exception, in full (R253): P, then PC. -/
theorem returnFromException_eq : returnFromException s =
    { s with cpu := { s.cpu with
      p := pulledP (Store.read s.ram (256 + (s.cpu.sp + 1).toNat))
      pc := mkWord (Store.read s.ram (256 + (s.cpu.sp + 1 + 1 + 1).toNat))
        (Store.read s.ram (256 + (s.cpu.sp + 1 + 1).toNat))
      sp := s.cpu.sp + 1 + 1 + 1 } } := by
  unfold returnFromException
  rw [pull_eq]
  dsimp only
  rw [pullWord_eq]
  rfl

/-! ## What each class of operation answers -/

theorem readAt_eq (n : Nat) (f : Byte → State → State) (l : Located) : readAt n f l =
    .next ((f (busRead l.ea l.st).1 (busRead l.ea l.st).2).setCycles (n + l.crossed.toNat)) := rfl

theorem writeAt_eq (n : Nat) (v : State → Byte) (l : Located) :
    writeAt n v l = .next ((busWrite l.ea (v l.st) l.st).setCycles n) := rfl

theorem modifyAt_eq (n : Nat) (f : Byte → Byte → Byte × Byte) (l : Located) : modifyAt n f l =
    let m := (busRead l.ea l.st).1
    let u := (busRead l.ea l.st).2
    let u := if u.cfg.rmwDummyWrite then busWrite l.ea m u else u
    .next (((busWrite l.ea (f m u.cpu.p).1 u).setP (f m u.cpu.p).2).setCycles n) := rfl

end Sys2Proof.Machine
end

