-- ==== Sys2Proof/Laws/Claims.lean ====
section
/-! SUPPORT. The model's operations in the words claims use: which flags each leaves, N and Z of the result, the results
as numbers; the stack, an exception's entry, the frame sequencer's trigger points. -/

namespace Sys2Proof.Machine

variable (b : Bool) (p q r m : Byte) (mask : Byte)

theorem bit7_iff (v : Byte) : bit v 7 = true ↔ 128 ≤ v.toNat := by
  revert v; decide

/-- The flags a mask names, as a list of bits, for unfolding `SameFlagsBut`. -/
theorem sameFlagsBut_iff : SameFlagsBut mask p q ↔
    (bit mask 0 = false → bit q 0 = bit p 0) ∧ (bit mask 1 = false → bit q 1 = bit p 1) ∧
    (bit mask 2 = false → bit q 2 = bit p 2) ∧ (bit mask 3 = false → bit q 3 = bit p 3) ∧
    (bit mask 4 = false → bit q 4 = bit p 4) ∧ (bit mask 5 = false → bit q 5 = bit p 5) ∧
    (bit mask 6 = false → bit q 6 = bit p 6) ∧ (bit mask 7 = false → bit q 7 = bit p 7) := by
  constructor
  · intro h
    exact ⟨h 0 (by decide), h 1 (by decide), h 2 (by decide), h 3 (by decide), h 4 (by decide), h 5 (by decide),
      h 6 (by decide), h 7 (by decide)⟩
  · rintro ⟨h0, h1, h2, h3, h4, h5, h6, h7⟩ i hi
    rcases (by omega : i = 0 ∨ i = 1 ∨ i = 2 ∨ i = 3 ∨ i = 4 ∨ i = 5 ∨ i = 6 ∨ i = 7) with
      rfl | rfl | rfl | rfl | rfl | rfl | rfl | rfl <;> assumption

theorem flagsNZ_setNZ : FlagsNZ r (setNZ r p) := by
  constructor
  · rw [flagN, bit_setNZ, if_pos rfl, bit7_iff]
  · simp [flagZ, bit_setNZ]

theorem sameFlagsBut_setNZ : SameFlagsBut 0x82 p (setNZ r p) := by
  simp only [sameFlagsBut_iff, bit_setNZ]
  simp [bit]

theorem sameFlagsBut_setNZ_setC : SameFlagsBut 0x83 p (setNZ r (setC b p)) := by
  simp only [sameFlagsBut_iff, bit_setNZ, bit_setC]
  simp [bit]

@[simp] theorem flagC_setNZ : flagC (setNZ r p) = flagC p := by simp [flagC, bit_setNZ]
@[simp] theorem flagC_setC : flagC (setC b p) = b := by simp [flagC, bit_setC]
@[simp] theorem flagV_setNZ : flagV (setNZ r p) = flagV p := by simp [flagV, bit_setNZ]
@[simp] theorem flagV_setV : flagV (setV b p) = b := by simp [flagV, bit_setV]
@[simp] theorem flagC_setV : flagC (setV b p) = flagC p := by simp [flagC, bit_setV]

/-! ## Bits as numbers -/

theorem toNat_ofBit (w : Nat) (h : 0 < w) : (ofBit w b).toNat = b.toNat := by
  cases b <;> simp [ofBit]
  omega

theorem bit_toNat {w : Nat} (v : BitVec w) (i : Nat) : bit v i = decide (v.toNat / 2 ^ i % 2 = 1) := by
  unfold bit
  rw [BitVec.getLsbD, Nat.testBit_eq_decide_div_mod_eq]

theorem toNat_bit {w : Nat} (v : BitVec w) (i : Nat) : (bit v i).toNat = v.toNat / 2 ^ i % 2 := by
  rw [bit_toNat]
  have := Nat.mod_two_eq_zero_or_one (v.toNat / 2 ^ i)
  rcases this with h | h <;> simp [h]

theorem toNat_not_bit {w : Nat} (v : BitVec w) (i : Nat) : (!bit v i).toNat = 1 - v.toNat / 2 ^ i % 2 := by
  rw [bit_toNat]
  have := Nat.mod_two_eq_zero_or_one (v.toNat / 2 ^ i)
  rcases this with h | h <;> simp [h]

/-- `v[i] <- b` as a number. -/
theorem toNat_setBit {w : Nat} (v : BitVec w) (i : Nat) (b : Bool) (h : i < w) :
    (setBit v i b).toNat = v.toNat / 2 ^ (i + 1) * 2 ^ (i + 1) + b.toNat * 2 ^ i + v.toNat % 2 ^ i := by
  rw [setBit_eq_putField v i b h, toNat_putField v i _ h, toNat_ofBit b 1 (by decide)]

/-! ## ADC and SBC (R170 to R172) -/

variable (a : Byte)

theorem addWithCarry_toNat : (addWithCarry a m p).1.toNat = (a.toNat + m.toNat + (flagC p).toNat) % 256 := by
  have ha := a.isLt
  have hm := m.isLt
  have hc := Bool.toNat_le (flagC p)
  simp only [addWithCarry, BitVec.toNat_setWidth, BitVec.toNat_add, toNat_ofBit (flagC p) 9 (by decide)]
  omega

theorem addWithCarry_carry :
    flagC (addWithCarry a m p).2 = true ↔ 256 ≤ a.toNat + m.toNat + (flagC p).toNat := by
  have ha := a.isLt
  have hm := m.isLt
  have hc := Bool.toNat_le (flagC p)
  simp only [addWithCarry, flagC_setNZ, flagC_setV, flagC_setC, bit_toNat, BitVec.toNat_add, BitVec.toNat_setWidth,
    toNat_ofBit _ 9 (by decide : 0 < 9), decide_eq_true_eq]
  generalize (flagC p).toNat = k at *
  omega

theorem addWithCarry_overflow : flagV (addWithCarry a m p).2 = true ↔
    bit a 7 = bit m 7 ∧ bit (addWithCarry a m p).1 7 ≠ bit a 7 := by
  simp only [addWithCarry, flagV_setNZ, flagV_setV]
  generalize (BitVec.setWidth 8 _ : Byte) = t
  simp only [bit, BitVec.getLsbD_and, BitVec.getLsbD_not, BitVec.getLsbD_xor]
  cases a.getLsbD 7 <;> cases m.getLsbD 7 <;> cases t.getLsbD 7 <;> simp

theorem addWithCarry_flagsNZ : FlagsNZ (addWithCarry a m p).1 (addWithCarry a m p).2 := flagsNZ_setNZ _ _

theorem addWithCarry_sameFlags : SameFlagsBut 0xC3 p (addWithCarry a m p).2 := by
  simp only [addWithCarry, sameFlagsBut_iff, bit_setNZ, bit_setV, bit_setC]
  simp [bit]

theorem toNat_xor_ff : (m ^^^ 0xFF).toNat = 255 - m.toNat := by
  revert m; decide

/-! ## Increments and shifts (R176, R177, R182 to R185) -/

theorem toNat_add_one : (m + 1).toNat = (m.toNat + 1) % 256 := by simp [BitVec.toNat_add]
theorem toNat_sub_one : (m - 1).toNat = (m.toNat + 255) % 256 := by simp [BitVec.toNat_sub]; omega

theorem toNat_asl : (m <<< 1).toNat = 2 * m.toNat % 256 := by
  simp [BitVec.toNat_shiftLeft, Nat.shiftLeft_eq]; omega

theorem toNat_lsr : (m >>> 1).toNat = m.toNat / 2 := by
  simp [BitVec.toNat_ushiftRight, Nat.shiftRight_eq_div_pow]

theorem toNat_rol : ((m <<< 1) ||| ofBit 8 b).toNat = (2 * m.toNat + b.toNat) % 256 := by
  revert m b; decide

theorem toNat_ror : ((ofBit 8 b <<< 7) ||| (m >>> 1)).toNat = m.toNat / 2 + 128 * b.toNat := by
  revert m b; decide

/-! ## The read-modify-write bytes (R176, R177, R182 to R185) -/

theorem SameFlagsBut.widen {p q : Byte} (h : SameFlagsBut 0x82 p q) : SameFlagsBut 0x83 p q := by
  rw [sameFlagsBut_iff] at *
  exact ⟨nofun, nofun, fun _ => h.2.2.1 rfl, fun _ => h.2.2.2.1 rfl, fun _ => h.2.2.2.2.1 rfl,
    fun _ => h.2.2.2.2.2.1 rfl, fun _ => h.2.2.2.2.2.2.1 rfl, nofun⟩

theorem incByte_spec : (incByte m p).1.toNat = (m.toNat + 1) % 256 ∧ flagC (incByte m p).2 = flagC p ∧
    FlagsNZ (incByte m p).1 (incByte m p).2 ∧ SameFlagsBut 0x82 p (incByte m p).2 :=
  ⟨toNat_add_one m, flagC_setNZ _ _, flagsNZ_setNZ _ _, sameFlagsBut_setNZ _ _⟩

theorem decByte_spec : (decByte m p).1.toNat = (m.toNat + 255) % 256 ∧ flagC (decByte m p).2 = flagC p ∧
    FlagsNZ (decByte m p).1 (decByte m p).2 ∧ SameFlagsBut 0x82 p (decByte m p).2 :=
  ⟨toNat_sub_one m, flagC_setNZ _ _, flagsNZ_setNZ _ _, sameFlagsBut_setNZ _ _⟩

theorem aslByte_spec : (aslByte m p).1.toNat = 2 * m.toNat % 256 ∧ flagC (aslByte m p).2 = bit m 7 ∧
    FlagsNZ (aslByte m p).1 (aslByte m p).2 ∧ SameFlagsBut 0x83 p (aslByte m p).2 :=
  ⟨toNat_asl m, (flagC_setNZ _ _).trans (flagC_setC _ _), flagsNZ_setNZ _ _, sameFlagsBut_setNZ_setC _ _ _⟩

theorem lsrByte_spec : (lsrByte m p).1.toNat = m.toNat / 2 ∧ flagC (lsrByte m p).2 = bit m 0 ∧
    FlagsNZ (lsrByte m p).1 (lsrByte m p).2 ∧ SameFlagsBut 0x83 p (lsrByte m p).2 :=
  ⟨toNat_lsr m, (flagC_setNZ _ _).trans (flagC_setC _ _), flagsNZ_setNZ _ _, sameFlagsBut_setNZ_setC _ _ _⟩

theorem rolByte_spec : (rolByte m p).1.toNat = (2 * m.toNat + (flagC p).toNat) % 256 ∧
    flagC (rolByte m p).2 = bit m 7 ∧ FlagsNZ (rolByte m p).1 (rolByte m p).2 ∧
    SameFlagsBut 0x83 p (rolByte m p).2 :=
  ⟨toNat_rol _ m, (flagC_setNZ _ _).trans (flagC_setC _ _), flagsNZ_setNZ _ _, sameFlagsBut_setNZ_setC _ _ _⟩

theorem rorByte_spec : (rorByte m p).1.toNat = m.toNat / 2 + 128 * (flagC p).toNat ∧
    flagC (rorByte m p).2 = bit m 0 ∧ FlagsNZ (rorByte m p).1 (rorByte m p).2 ∧
    SameFlagsBut 0x83 p (rorByte m p).2 :=
  ⟨toNat_ror _ m, (flagC_setNZ _ _).trans (flagC_setC _ _), flagsNZ_setNZ _ _, sameFlagsBut_setNZ_setC _ _ _⟩

/-! ## Addresses -/

theorem toNat_sext16 : (sext16 m).toNat = if m.toNat < 128 then m.toNat else m.toNat + 65280 := by
  revert m; decide

theorem hi8_bne_iff (u w : Word) : (hi8 u != hi8 w) = true ↔ u.toNat / 256 ≠ w.toNat / 256 := by
  rw [← toNat_hi8, ← toNat_hi8, bne_iff_ne, ne_eq, ne_eq, BitVec.toNat_inj]

theorem toNat_add_zext16 (w : Word) : (w + zext16 m).toNat = (w.toNat + m.toNat) % 65536 := by
  rw [BitVec.toNat_add, toNat_zext16]

theorem mkWord_hi8_lo8_add_one (w : Word) :
    mkWord (hi8 w) (lo8 w + 1) = BitVec.ofNat 16 (w.toNat / 256 * 256 + (w.toNat + 1) % 256) := by
  apply BitVec.eq_of_toNat_eq
  have := w.isLt
  rw [toNat_mkWord, toNat_hi8, BitVec.toNat_add, toNat_lo8, BitVec.toNat_ofNat,
    show (1 : Byte).toNat = 1 from rfl]
  omega

/-! ## The stack and an exception's entry -/

variable (s : State)

theorem cell_withCpu (c : Cpu) (k : MemCell) : ({ s with cpu := c } : State).cell k = s.cell k := by
  cases k <;> rfl

theorem stackCell_inj : stackCell p = stackCell q ↔ p = q := by
  simp only [stackCell, MemCell.ram.injEq, Nat.add_left_cancel_iff]
  exact BitVec.toNat_inj

theorem sameFlagsBut_pushedP : SameFlagsBut 0x30 p (pushedP b p) := by
  intro i hi h
  rw [bit_pushedP _ _ _ hi, if_neg, if_neg] <;> rintro rfl <;> revert h <;> decide

theorem sameFlagsBut_pulledP : SameFlagsBut 0x30 m (pulledP m) := by
  intro i hi h
  rw [bit_pulledP _ _ hi]
  rcases (by omega : i = 0 ∨ i = 1 ∨ i = 2 ∨ i = 3 ∨ i = 4 ∨ i = 5 ∨ i = 6 ∨ i = 7) with
    rfl | rfl | rfl | rfl | rfl | rfl | rfl | rfl <;> first | rfl | (exfalso; revert h; decide)

/-- Taking an exception is what `Entered` says, whatever cycle count is then set. -/
theorem entered_takeException (vec : Word) (n : Nat) (h1 : 0x6000 ≤ vec) (h2 : 0x6000 ≤ vec + 1) :
    Entered vec b s ((takeException vec b s).setCycles n) := by
  have e2 : s.cpu.sp - 1 - 1 = s.cpu.sp - 2 := by rw [BitVec.sub_sub]; rfl
  have e3 : s.cpu.sp - 2 - 1 = s.cpu.sp - 3 := by rw [BitVec.sub_sub]; rfl
  have hr := takeException_eq vec s b
  rw [e2, e3] at hr
  dsimp only at hr
  unfold readWord at hr
  dsimp only at hr
  rw [busRead_high _ _ h1, busRead_high _ _ h2] at hr
  dsimp only at hr
  rw [hr]
  have h := s.cpu.sp.isLt
  have t1 : (s.cpu.sp - 1).toNat = (s.cpu.sp.toNat + 255) % 256 := toNat_sub_one _
  have t2 : (s.cpu.sp - 2).toNat = (s.cpu.sp.toNat + 254) % 256 := by
    rw [BitVec.toNat_sub, show (2 : Byte).toNat = 2 from rfl]; omega
  refine ⟨rfl, bit_setI _ _ 2, ?_, ?_, ?_, ?_, ⟨_, rfl, ?_, ?_, ?_⟩, ?_⟩
  · intro i hi hb
    show bit (setI _ _) i = _
    rw [bit_setI, if_neg]
    rintro rfl; revert hb; decide
  · rw [busRead_high _ _ h1, busRead_high _ _ h2]; rfl
  · show Store.read (Store.write (Store.write (Store.write _ _ _) _ _) _ _) _ = _
    rw [Store.read_write, if_neg (by omega), Store.read_write, if_neg (by omega), Store.read_write, if_pos rfl]
  · show Store.read (Store.write (Store.write (Store.write _ _ _) _ _) _ _) _ = _
    rw [Store.read_write, if_neg (by omega), Store.read_write, if_pos rfl]
  · show bit (Store.read (Store.write _ _ _) _) 4 = _
    rw [Store.read_write, if_pos rfl]; exact bit_pushedP _ _ 4 (by decide)
  · show bit (Store.read (Store.write _ _ _) _) 5 = _
    rw [Store.read_write, if_pos rfl]; exact bit_pushedP _ _ 5 (by decide)
  · show SameFlagsBut _ _ (Store.read (Store.write _ _ _) _)
    rw [Store.read_write, if_pos rfl]; exact sameFlagsBut_pushedP _ _
  · intro c a1 a2 a3
    cases c with
    | ram i =>
      show Store.read (Store.write (Store.write (Store.write _ _ _) _ _) _ _) i = _
      rw [Store.read_write, if_neg (fun h => a3 (by rw [h]; rfl)), Store.read_write,
        if_neg (fun h => a2 (by rw [h]; rfl)), Store.read_write, if_neg (fun h => a1 (by rw [h]; rfl))]
      rfl
    | _ => rfl

/-! ## The frame sequencer's trigger points (R431) -/

theorem frameEvents_eq (mode : Bool) (n : Nat) : frameEvents mode n =
    ⟨decide (n = 7457 ∨ n = 22371 ∨ n = 14913 ∨ mode = false ∧ n = 29829 ∨ mode = true ∧ n = 37281),
      decide (n = 14913 ∨ mode = false ∧ n = 29829 ∨ mode = true ∧ n = 37281),
      decide (mode = false ∧ 29828 ≤ n ∧ n ≤ 29830)⟩ := by
  unfold frameEvents
  cases mode <;> simp <;> (repeat' split) <;> simp <;> omega

end Sys2Proof.Machine
end

