-- ==== Sys2Proof/Laws/Decode.lean ====
section
/-! SUPPORT. What every row of the opcode matrix makes: instructions whose encoding is the row's opcode and the operand
bytes given, and the padded row is BRK's alone (R100, R118, R254). -/

namespace Sys2Proof

/-- What a row of the matrix makes at an opcode byte. -/
def Row.Makes (b : Byte) : Row → Prop
  | .implied i => encode i = [b] ∧ i ≠ .brk
  | .padded i => i = .brk ∧ b = 0
  | .byte f => ∀ c, encode (f c) = [b, c] ∧ f c ≠ .brk
  | .word f => ∀ w, encode (f w) = [b, lo8 w, hi8 w] ∧ f w ≠ .brk

theorem makes_row0 : ∀ n, n < 16 → (opcodeRow (BitVec.ofNat 8 (0 + n))).Makes (BitVec.ofNat 8 (0 + n)) := by
  intro n hn
  interval_cases n
  all_goals first
    | exact ⟨rfl, rfl⟩
    | exact ⟨rfl, nofun⟩
    | exact fun _ => ⟨rfl, nofun⟩

theorem makes_row1 : ∀ n, n < 16 → (opcodeRow (BitVec.ofNat 8 (16 + n))).Makes (BitVec.ofNat 8 (16 + n)) := by
  intro n hn
  interval_cases n
  all_goals first
    | exact ⟨rfl, rfl⟩
    | exact ⟨rfl, nofun⟩
    | exact fun _ => ⟨rfl, nofun⟩

theorem makes_row2 : ∀ n, n < 16 → (opcodeRow (BitVec.ofNat 8 (32 + n))).Makes (BitVec.ofNat 8 (32 + n)) := by
  intro n hn
  interval_cases n
  all_goals first
    | exact ⟨rfl, rfl⟩
    | exact ⟨rfl, nofun⟩
    | exact fun _ => ⟨rfl, nofun⟩

theorem makes_row3 : ∀ n, n < 16 → (opcodeRow (BitVec.ofNat 8 (48 + n))).Makes (BitVec.ofNat 8 (48 + n)) := by
  intro n hn
  interval_cases n
  all_goals first
    | exact ⟨rfl, rfl⟩
    | exact ⟨rfl, nofun⟩
    | exact fun _ => ⟨rfl, nofun⟩

theorem makes_row4 : ∀ n, n < 16 → (opcodeRow (BitVec.ofNat 8 (64 + n))).Makes (BitVec.ofNat 8 (64 + n)) := by
  intro n hn
  interval_cases n
  all_goals first
    | exact ⟨rfl, rfl⟩
    | exact ⟨rfl, nofun⟩
    | exact fun _ => ⟨rfl, nofun⟩

theorem makes_row5 : ∀ n, n < 16 → (opcodeRow (BitVec.ofNat 8 (80 + n))).Makes (BitVec.ofNat 8 (80 + n)) := by
  intro n hn
  interval_cases n
  all_goals first
    | exact ⟨rfl, rfl⟩
    | exact ⟨rfl, nofun⟩
    | exact fun _ => ⟨rfl, nofun⟩

theorem makes_row6 : ∀ n, n < 16 → (opcodeRow (BitVec.ofNat 8 (96 + n))).Makes (BitVec.ofNat 8 (96 + n)) := by
  intro n hn
  interval_cases n
  all_goals first
    | exact ⟨rfl, rfl⟩
    | exact ⟨rfl, nofun⟩
    | exact fun _ => ⟨rfl, nofun⟩

theorem makes_row7 : ∀ n, n < 16 → (opcodeRow (BitVec.ofNat 8 (112 + n))).Makes (BitVec.ofNat 8 (112 + n)) := by
  intro n hn
  interval_cases n
  all_goals first
    | exact ⟨rfl, rfl⟩
    | exact ⟨rfl, nofun⟩
    | exact fun _ => ⟨rfl, nofun⟩

theorem makes_row8 : ∀ n, n < 16 → (opcodeRow (BitVec.ofNat 8 (128 + n))).Makes (BitVec.ofNat 8 (128 + n)) := by
  intro n hn
  interval_cases n
  all_goals first
    | exact ⟨rfl, rfl⟩
    | exact ⟨rfl, nofun⟩
    | exact fun _ => ⟨rfl, nofun⟩

theorem makes_row9 : ∀ n, n < 16 → (opcodeRow (BitVec.ofNat 8 (144 + n))).Makes (BitVec.ofNat 8 (144 + n)) := by
  intro n hn
  interval_cases n
  all_goals first
    | exact ⟨rfl, rfl⟩
    | exact ⟨rfl, nofun⟩
    | exact fun _ => ⟨rfl, nofun⟩

theorem makes_rowA : ∀ n, n < 16 → (opcodeRow (BitVec.ofNat 8 (160 + n))).Makes (BitVec.ofNat 8 (160 + n)) := by
  intro n hn
  interval_cases n
  all_goals first
    | exact ⟨rfl, rfl⟩
    | exact ⟨rfl, nofun⟩
    | exact fun _ => ⟨rfl, nofun⟩

theorem makes_rowB : ∀ n, n < 16 → (opcodeRow (BitVec.ofNat 8 (176 + n))).Makes (BitVec.ofNat 8 (176 + n)) := by
  intro n hn
  interval_cases n
  all_goals first
    | exact ⟨rfl, rfl⟩
    | exact ⟨rfl, nofun⟩
    | exact fun _ => ⟨rfl, nofun⟩

theorem makes_rowC : ∀ n, n < 16 → (opcodeRow (BitVec.ofNat 8 (192 + n))).Makes (BitVec.ofNat 8 (192 + n)) := by
  intro n hn
  interval_cases n
  all_goals first
    | exact ⟨rfl, rfl⟩
    | exact ⟨rfl, nofun⟩
    | exact fun _ => ⟨rfl, nofun⟩

theorem makes_rowD : ∀ n, n < 16 → (opcodeRow (BitVec.ofNat 8 (208 + n))).Makes (BitVec.ofNat 8 (208 + n)) := by
  intro n hn
  interval_cases n
  all_goals first
    | exact ⟨rfl, rfl⟩
    | exact ⟨rfl, nofun⟩
    | exact fun _ => ⟨rfl, nofun⟩

theorem makes_rowE : ∀ n, n < 16 → (opcodeRow (BitVec.ofNat 8 (224 + n))).Makes (BitVec.ofNat 8 (224 + n)) := by
  intro n hn
  interval_cases n
  all_goals first
    | exact ⟨rfl, rfl⟩
    | exact ⟨rfl, nofun⟩
    | exact fun _ => ⟨rfl, nofun⟩

theorem makes_rowF : ∀ n, n < 16 → (opcodeRow (BitVec.ofNat 8 (240 + n))).Makes (BitVec.ofNat 8 (240 + n)) := by
  intro n hn
  interval_cases n
  all_goals first
    | exact ⟨rfl, rfl⟩
    | exact ⟨rfl, nofun⟩
    | exact fun _ => ⟨rfl, nofun⟩

/-- Every opcode byte's row makes instructions of that opcode (R121). -/
theorem opcodeRow_makes (b : Byte) : (opcodeRow b).Makes b := by
  have hb := b.isLt
  have e : b = BitVec.ofNat 8 (16 * (b.toNat / 16) + b.toNat % 16) := by
    apply BitVec.eq_of_toNat_eq
    rw [BitVec.toNat_ofNat]
    omega
  have hm : b.toNat % 16 < 16 := Nat.mod_lt _ (by decide)
  have hd : b.toNat / 16 < 16 := by omega
  rw [e]
  generalize b.toNat % 16 = n at hm
  generalize b.toNat / 16 = k at hd
  interval_cases k
  · exact makes_row0 n hm
  · exact makes_row1 n hm
  · exact makes_row2 n hm
  · exact makes_row3 n hm
  · exact makes_row4 n hm
  · exact makes_row5 n hm
  · exact makes_row6 n hm
  · exact makes_row7 n hm
  · exact makes_row8 n hm
  · exact makes_row9 n hm
  · exact makes_rowA n hm
  · exact makes_rowB n hm
  · exact makes_rowC n hm
  · exact makes_rowD n hm
  · exact makes_rowE n hm
  · exact makes_rowF n hm

end Sys2Proof
end

