-- ==== Sys2Proof/Laws/Exec.lean ====
section
/-! SUPPORT. What an instruction can do, said once: every outcome that goes on is reached from the starting state by bus
reads, bus writes and updates of the program's registers. An invariant of the machine needs one case for each of these,
not one for each instruction. -/

namespace Sys2Proof.Machine

/-- The actions of the CPU on the state: bus accesses, register updates, updates of P that keep bits 4 and 5 or give them
their fixed values, a new cycle count of at most 8 (R35), and, where `W` allows it, a latency window (R36). -/
inductive CpuActs (W : Prop) (s : State) : State → Prop
  | refl : CpuActs W s s
  | read (a : Word) {t : State} : CpuActs W s t → CpuActs W s (busRead a t).2
  | write (a : Word) (v : Byte) {t : State} : CpuActs W s t → CpuActs W s (busWrite a v t)
  | regs (a x y sp : Byte) (pc : Word) {t : State} : CpuActs W s t →
      CpuActs W s { t with cpu := { t.cpu with a := a, x := x, y := y, sp := sp, pc := pc } }
  | status (p : Byte) {t : State} : (SameBU t.cpu.p p ∨ (flagB p = false ∧ flagU p = true)) → CpuActs W s t →
      CpuActs W s (t.setP p)
  | cycles (n : Nat) {t : State} : n ≤ 8 → CpuActs W s t → CpuActs W s (t.setCycles n)
  | window (w : Option Bool) {t : State} : W → CpuActs W s t → CpuActs W s (t.setIWindow w)

namespace CpuActs

variable {W : Prop} {s t u : State}

theorem trans (h : CpuActs W s t) (h' : CpuActs W t u) : CpuActs W s u := by
  induction h' with
  | refl => exact h
  | read a _ ih => exact ih.read a
  | write a v _ ih => exact ih.write a v
  | regs a x y sp pc _ ih => exact ih.regs a x y sp pc
  | status p hp _ ih => exact ih.status p hp
  | cycles n hn _ ih => exact ih.cycles n hn
  | window w hw _ ih => exact ih.window w hw

theorem setA (v : Byte) (h : CpuActs W s t) : CpuActs W s (t.setA v) := h.regs v _ _ _ _
theorem setX (v : Byte) (h : CpuActs W s t) : CpuActs W s (t.setX v) := h.regs _ v _ _ _
theorem setY (v : Byte) (h : CpuActs W s t) : CpuActs W s (t.setY v) := h.regs _ _ v _ _
theorem setSP (v : Byte) (h : CpuActs W s t) : CpuActs W s (t.setSP v) := h.regs _ _ _ v _
theorem setPC (v : Word) (h : CpuActs W s t) : CpuActs W s (t.setPC v) := h.regs _ _ _ _ v
theorem setNZ (r : Byte) (h : CpuActs W s t) : CpuActs W s (t.setNZ r) := h.status _ (.inl (sameBU_setNZ _ _ (.refl _)))
theorem dummy (a : Word) (h : CpuActs W s t) : CpuActs W s (busDummyRead a t) := h.read a

theorem push (v : Byte) (h : CpuActs W s t) : CpuActs W s (Machine.push v t) := (h.write _ v).setSP _
theorem pull (h : CpuActs W s t) : CpuActs W s (Machine.pull t).2 := (h.setSP _).read _
theorem pushWord (w : Word) (h : CpuActs W s t) : CpuActs W s (Machine.pushWord w t) := (h.push _).push _
theorem pullWord (h : CpuActs W s t) : CpuActs W s (Machine.pullWord t).2 := h.pull.pull
theorem readWord (a : Word) (h : CpuActs W s t) : CpuActs W s (Machine.readWord a t).2 := (h.read a).read (a + 1)

theorem takeException (vec : Word) (brk : Bool) (h : CpuActs W s t) : CpuActs W s (Machine.takeException vec brk t) :=
  (((((h.pushWord t.cpu.pc).push _).status _ (.inl (sameBU_setI _ _ (.refl _))))).readWord vec).setPC _

theorem returnFromException (h : CpuActs W s t) : CpuActs W s (Machine.returnFromException t) :=
  ((h.pull.status _ (.inr ⟨bit_pulledP _ 4 (by decide), bit_pulledP _ 5 (by decide)⟩)).pullWord).setPC _

/-- No action changes the configuration. -/
theorem cfg (h : CpuActs W s t) : t.cfg = s.cfg := by
  induction h with
  | refl => rfl
  | read a _ ih => rw [busRead_cfg, ih]
  | write a v _ ih => rw [busWrite_cfg, ih]
  | regs _ _ _ _ _ _ ih => exact ih
  | status _ _ _ ih => exact ih
  | cycles _ _ _ ih => exact ih
  | window _ _ _ ih => exact ih

/-- No action changes the master clock. -/
theorem sysclk (h : CpuActs W s t) : t.sysclk = s.sysclk := by
  induction h with
  | refl => rfl
  | read a _ ih => rw [busRead_sysclk, ih]
  | write a v _ ih => rw [busWrite_sysclk, ih]
  | regs _ _ _ _ _ _ ih => exact ih
  | status _ _ _ ih => exact ih
  | cycles _ _ _ ih => exact ih
  | window _ _ _ ih => exact ih

/-- Where no action may set it, the latency window stays. -/
theorem iWindow (h : CpuActs False s t) : t.cpu.iWindow = s.cpu.iWindow := by
  induction h with
  | refl => rfl
  | read a _ ih => rw [busRead_cpu, ih]
  | write a v _ ih => rw [busWrite_iWindow, ih]
  | regs _ _ _ _ _ _ ih => exact ih
  | status _ _ _ ih => exact ih
  | cycles _ _ _ ih => exact ih
  | window _ hw _ _ => exact hw.elim

/-! ## The operand forms -/

theorem indexed (cls : AccessClass) (base : Word) (i : Byte) (h : CpuActs W s t) :
    CpuActs W s (Machine.indexed cls base i t).st := by
  unfold Machine.indexed
  dsimp only
  split
  · exact h.dummy _
  · exact h

theorem zeroPagePointer (z : Byte) (h : CpuActs W s t) : CpuActs W s (Machine.zeroPagePointer z t).2 :=
  (h.read _).read _

theorem atIzy (cls : AccessClass) (z : Byte) (h : CpuActs W s t) : CpuActs W s (Machine.atIzy cls z t).st :=
  (h.zeroPagePointer z).indexed cls _ _

/-! ## What the operations do with their byte -/

theorem loadA (m : Byte) (h : CpuActs W s t) : CpuActs W s (Machine.loadA m t) := (h.setA m).setNZ m
theorem loadX (m : Byte) (h : CpuActs W s t) : CpuActs W s (Machine.loadX m t) := (h.setX m).setNZ m
theorem loadY (m : Byte) (h : CpuActs W s t) : CpuActs W s (Machine.loadY m t) := (h.setY m).setNZ m

end CpuActs

/-- Every state an outcome goes on in is reached by actions of the CPU. -/
def ActsOn (W : Prop) (s : State) (o : Outcome) : Prop := ∀ t, o = .next t → CpuActs W s t

variable {W : Prop}

/-- A function of a byte on the state that only acts as the CPU does. -/
def ActsAlways (f : Byte → State → State) : Prop := ∀ (W : Prop) m t, CpuActs W t (f m t)

theorem actsAlways_loadA : ActsAlways loadA := fun _ m _ => CpuActs.refl.loadA m
theorem actsAlways_loadX : ActsAlways loadX := fun _ m _ => CpuActs.refl.loadX m
theorem actsAlways_loadY : ActsAlways loadY := fun _ m _ => CpuActs.refl.loadY m
theorem actsAlways_logicA (f : Byte → Byte → Byte) : ActsAlways (logicA f) := fun _ m t => CpuActs.refl.loadA (f t.cpu.a m)
theorem actsAlways_adc : ActsAlways (arithA addWithCarry) := fun _ _ _ =>
  (CpuActs.refl.setA _).status _ (.inl (sameBU_addWithCarry _ _ _))
theorem actsAlways_sbc : ActsAlways (arithA subWithBorrow) := fun _ _ _ =>
  (CpuActs.refl.setA _).status _ (.inl (sameBU_subWithBorrow _ _ _))
theorem actsAlways_compare (r : State → Byte) : ActsAlways (compareWith r) := fun _ _ _ =>
  CpuActs.refl.status _ (.inl (sameBU_comparedP _ _ _))
theorem actsAlways_bitTest : ActsAlways bitTest := fun _ _ _ => CpuActs.refl.status _ (.inl (sameBU_bitTestP _ _ _))

theorem actsOn_finish {s t : State} {n : Nat} (hn : n ≤ 8) (h : CpuActs W s t) : ActsOn W s (finish n t) := by
  rintro _ ⟨⟩
  exact h.cycles n hn

theorem actsOn_onImm {s : State} {n : Nat} {f : Byte → State → State} (imm : Byte) (hn : n ≤ 8) (hf : ActsAlways f) :
    ActsOn W s (onImm n f imm s) := actsOn_finish hn (hf W imm s)

theorem actsOn_readAt {s : State} {n : Nat} {f : Byte → State → State} {l : Located} (hn : n ≤ 7) (hf : ActsAlways f)
    (hl : CpuActs W s l.st) : ActsOn W s (readAt n f l) := by
  refine actsOn_finish ?_ ((hl.read l.ea).trans (hf W _ _))
  have := Bool.toNat_le l.crossed
  omega

theorem actsOn_writeAt {s : State} {n : Nat} {v : State → Byte} {l : Located} (hn : n ≤ 8) (hl : CpuActs W s l.st) :
    ActsOn W s (writeAt n v l) := actsOn_finish hn (hl.write _ _)

/-- A result and P of a byte and P whose P keeps bits 4 and 5. -/
def KeepsBU (f : Byte → Byte → Byte × Byte) : Prop := ∀ m p, SameBU p (f m p).2

theorem actsOn_modifyAt {s : State} {n : Nat} {f : Byte → Byte → Byte × Byte} {l : Located} (hn : n ≤ 8)
    (hf : KeepsBU f) (hl : CpuActs W s l.st) : ActsOn W s (modifyAt n f l) := by
  unfold modifyAt
  dsimp only
  refine actsOn_finish hn (CpuActs.status _ (.inl ?_) (CpuActs.write _ _ ?_))
  · rw [busWrite_p]; exact hf _ _
  · split
    · exact (hl.read _).write _ _
    · exact hl.read _

theorem actsOn_modifyA {s : State} {n : Nat} {f : Byte → Byte → Byte × Byte} (hn : n ≤ 8) (hf : KeepsBU f) :
    ActsOn W s (modifyA n f s) := actsOn_finish hn ((CpuActs.refl.setA _).status _ (.inl (hf _ _)))

theorem actsOn_branchIf {s : State} (taken : Bool) (off : Byte) : ActsOn W s (branchIf taken off s) := by
  unfold branchIf
  dsimp only
  split
  · refine actsOn_finish ?_ (CpuActs.refl.setPC _)
    have := Bool.toNat_le (hi8 (s.cpu.pc + sext16 off) != hi8 s.cpu.pc)
    omega
  · exact actsOn_finish (by decide) .refl

theorem actsOn_unofficial {s : State} {op : Byte} {len : Word} {n : Nat} {cls : AccessClass} {mode : State → Located}
    (hn : n ≤ 7 ∨ (n ≤ 8 ∧ cls ≠ .read)) (hl : CpuActs W s (mode s).st) : ActsOn W s (unofficial op len n cls mode s) := by
  unfold unofficial
  split
  · rintro _ ⟨⟩
  · refine actsOn_finish ?_ hl
    rcases hn with hn | ⟨hn, hc⟩
    · have := Bool.toNat_le ((mode s).crossed && cls == .read)
      omega
    · have : (cls == AccessClass.read) = false := by simpa using hc
      simpa [this] using hn

/-- PLP (R229). -/
theorem execPlp_acts (hW : W) (s : State) : ActsOn W s (execPlp s) := by
  have h : CpuActs W s ((pull s).2.setP (pulledP (pull s).1)) :=
    CpuActs.refl.pull.status _ (.inr ⟨bit_pulledP _ 4 (by decide), bit_pulledP _ 5 (by decide)⟩)
  have h' : CpuActs W s (plp (pull s).1 (pull s).2) := by
    generalize (pull s).1 = v at h ⊢
    unfold plp
    split
    · exact h.window _ hW
    · exact h
  exact actsOn_finish (by decide) h'

theorem execBrk_acts (s : State) : ActsOn W s (execBrk s) :=
  actsOn_finish (by decide) ((CpuActs.refl.setPC _).takeException _ _)
theorem execOraIzx_acts (z : Byte) (s : State) : ActsOn W s (execOraIzx z s) :=
  actsOn_readAt (by decide) (actsAlways_logicA _) (CpuActs.refl.zeroPagePointer _)
theorem execJam02_acts (s : State) : ActsOn W s (execJam02 s) :=
  actsOn_unofficial (.inl (by decide)) .refl
theorem execSloIzx_acts (z : Byte) (s : State) : ActsOn W s (execSloIzx z s) :=
  actsOn_unofficial (.inr (by decide)) (CpuActs.refl.zeroPagePointer _)
theorem execUnop04_acts (z : Byte) (s : State) : ActsOn W s (execUnop04 z s) :=
  actsOn_unofficial (.inl (by decide)) .refl
theorem execOraZp0_acts (z : Byte) (s : State) : ActsOn W s (execOraZp0 z s) :=
  actsOn_readAt (by decide) (actsAlways_logicA _) .refl
theorem execAslZp0_acts (z : Byte) (s : State) : ActsOn W s (execAslZp0 z s) :=
  actsOn_modifyAt (by decide) sameBU_aslByte .refl
theorem execSloZp0_acts (z : Byte) (s : State) : ActsOn W s (execSloZp0 z s) :=
  actsOn_unofficial (.inl (by decide)) .refl
theorem execPhp_acts (s : State) : ActsOn W s (execPhp s) :=
  actsOn_finish (by decide) (CpuActs.refl.push _)
theorem execOraImm_acts (imm : Byte) (s : State) : ActsOn W s (execOraImm imm s) :=
  actsOn_onImm imm (by decide) (actsAlways_logicA _)
theorem execAslImp_acts (s : State) : ActsOn W s (execAslImp s) :=
  actsOn_modifyA (by decide) sameBU_aslByte
theorem execAnc0B_acts (imm : Byte) (s : State) : ActsOn W s (execAnc0B imm s) :=
  actsOn_unofficial (.inl (by decide)) .refl
theorem execUnop0C_acts (addr : Word) (s : State) : ActsOn W s (execUnop0C addr s) :=
  actsOn_unofficial (.inl (by decide)) .refl
theorem execOraAbs_acts (addr : Word) (s : State) : ActsOn W s (execOraAbs addr s) :=
  actsOn_readAt (by decide) (actsAlways_logicA _) .refl
theorem execAslAbs_acts (addr : Word) (s : State) : ActsOn W s (execAslAbs addr s) :=
  actsOn_modifyAt (by decide) sameBU_aslByte .refl
theorem execSloAbs_acts (addr : Word) (s : State) : ActsOn W s (execSloAbs addr s) :=
  actsOn_unofficial (.inl (by decide)) .refl
theorem execBpl_acts (off : Byte) (s : State) : ActsOn W s (execBpl off s) :=
  actsOn_branchIf _ _
theorem execOraIzy_acts (z : Byte) (s : State) : ActsOn W s (execOraIzy z s) :=
  actsOn_readAt (by decide) (actsAlways_logicA _) (CpuActs.refl.atIzy _ _)
theorem execJam12_acts (s : State) : ActsOn W s (execJam12 s) :=
  actsOn_unofficial (.inl (by decide)) .refl
theorem execSloIzy_acts (z : Byte) (s : State) : ActsOn W s (execSloIzy z s) :=
  actsOn_unofficial (.inr (by decide)) (CpuActs.refl.atIzy _ _)
theorem execUnop14_acts (z : Byte) (s : State) : ActsOn W s (execUnop14 z s) :=
  actsOn_unofficial (.inl (by decide)) .refl
theorem execOraZpx_acts (z : Byte) (s : State) : ActsOn W s (execOraZpx z s) :=
  actsOn_readAt (by decide) (actsAlways_logicA _) .refl
theorem execAslZpx_acts (z : Byte) (s : State) : ActsOn W s (execAslZpx z s) :=
  actsOn_modifyAt (by decide) sameBU_aslByte .refl
theorem execSloZpx_acts (z : Byte) (s : State) : ActsOn W s (execSloZpx z s) :=
  actsOn_unofficial (.inl (by decide)) .refl
theorem execClc_acts (s : State) : ActsOn W s (execClc s) :=
  actsOn_finish (by decide) (CpuActs.refl.status _ (.inl (sameBU_setC _ _ (.refl _))))
theorem execOraAby_acts (base : Word) (s : State) : ActsOn W s (execOraAby base s) :=
  actsOn_readAt (by decide) (actsAlways_logicA _) (CpuActs.refl.indexed _ _ _)
theorem execUnop1A_acts (s : State) : ActsOn W s (execUnop1A s) :=
  actsOn_unofficial (.inl (by decide)) .refl
theorem execSloAby_acts (base : Word) (s : State) : ActsOn W s (execSloAby base s) :=
  actsOn_unofficial (.inl (by decide)) (CpuActs.refl.indexed _ _ _)
theorem execUnop1C_acts (base : Word) (s : State) : ActsOn W s (execUnop1C base s) :=
  actsOn_unofficial (.inl (by decide)) (CpuActs.refl.indexed _ _ _)
theorem execOraAbx_acts (base : Word) (s : State) : ActsOn W s (execOraAbx base s) :=
  actsOn_readAt (by decide) (actsAlways_logicA _) (CpuActs.refl.indexed _ _ _)
theorem execAslAbx_acts (base : Word) (s : State) : ActsOn W s (execAslAbx base s) :=
  actsOn_modifyAt (by decide) sameBU_aslByte (CpuActs.refl.indexed _ _ _)
theorem execSloAbx_acts (base : Word) (s : State) : ActsOn W s (execSloAbx base s) :=
  actsOn_unofficial (.inl (by decide)) (CpuActs.refl.indexed _ _ _)
theorem execJsr_acts (addr : Word) (s : State) : ActsOn W s (execJsr addr s) :=
  actsOn_finish (by decide) ((CpuActs.refl.pushWord _).setPC _)
theorem execAndIzx_acts (z : Byte) (s : State) : ActsOn W s (execAndIzx z s) :=
  actsOn_readAt (by decide) (actsAlways_logicA _) (CpuActs.refl.zeroPagePointer _)
theorem execJam22_acts (s : State) : ActsOn W s (execJam22 s) :=
  actsOn_unofficial (.inl (by decide)) .refl
theorem execRlaIzx_acts (z : Byte) (s : State) : ActsOn W s (execRlaIzx z s) :=
  actsOn_unofficial (.inr (by decide)) (CpuActs.refl.zeroPagePointer _)
theorem execBitZp0_acts (z : Byte) (s : State) : ActsOn W s (execBitZp0 z s) :=
  actsOn_readAt (by decide) actsAlways_bitTest .refl
theorem execAndZp0_acts (z : Byte) (s : State) : ActsOn W s (execAndZp0 z s) :=
  actsOn_readAt (by decide) (actsAlways_logicA _) .refl
theorem execRolZp0_acts (z : Byte) (s : State) : ActsOn W s (execRolZp0 z s) :=
  actsOn_modifyAt (by decide) sameBU_rolByte .refl
theorem execRlaZp0_acts (z : Byte) (s : State) : ActsOn W s (execRlaZp0 z s) :=
  actsOn_unofficial (.inl (by decide)) .refl
theorem execAndImm_acts (imm : Byte) (s : State) : ActsOn W s (execAndImm imm s) :=
  actsOn_onImm imm (by decide) (actsAlways_logicA _)
theorem execRolImp_acts (s : State) : ActsOn W s (execRolImp s) :=
  actsOn_modifyA (by decide) sameBU_rolByte
theorem execAnc2B_acts (imm : Byte) (s : State) : ActsOn W s (execAnc2B imm s) :=
  actsOn_unofficial (.inl (by decide)) .refl
theorem execBitAbs_acts (addr : Word) (s : State) : ActsOn W s (execBitAbs addr s) :=
  actsOn_readAt (by decide) actsAlways_bitTest .refl
theorem execAndAbs_acts (addr : Word) (s : State) : ActsOn W s (execAndAbs addr s) :=
  actsOn_readAt (by decide) (actsAlways_logicA _) .refl
theorem execRolAbs_acts (addr : Word) (s : State) : ActsOn W s (execRolAbs addr s) :=
  actsOn_modifyAt (by decide) sameBU_rolByte .refl
theorem execRlaAbs_acts (addr : Word) (s : State) : ActsOn W s (execRlaAbs addr s) :=
  actsOn_unofficial (.inl (by decide)) .refl
theorem execBmi_acts (off : Byte) (s : State) : ActsOn W s (execBmi off s) :=
  actsOn_branchIf _ _
theorem execAndIzy_acts (z : Byte) (s : State) : ActsOn W s (execAndIzy z s) :=
  actsOn_readAt (by decide) (actsAlways_logicA _) (CpuActs.refl.atIzy _ _)
theorem execJam32_acts (s : State) : ActsOn W s (execJam32 s) :=
  actsOn_unofficial (.inl (by decide)) .refl
theorem execRlaIzy_acts (z : Byte) (s : State) : ActsOn W s (execRlaIzy z s) :=
  actsOn_unofficial (.inr (by decide)) (CpuActs.refl.atIzy _ _)
theorem execUnop34_acts (z : Byte) (s : State) : ActsOn W s (execUnop34 z s) :=
  actsOn_unofficial (.inl (by decide)) .refl
theorem execAndZpx_acts (z : Byte) (s : State) : ActsOn W s (execAndZpx z s) :=
  actsOn_readAt (by decide) (actsAlways_logicA _) .refl
theorem execRolZpx_acts (z : Byte) (s : State) : ActsOn W s (execRolZpx z s) :=
  actsOn_modifyAt (by decide) sameBU_rolByte .refl
theorem execRlaZpx_acts (z : Byte) (s : State) : ActsOn W s (execRlaZpx z s) :=
  actsOn_unofficial (.inl (by decide)) .refl
theorem execSec_acts (s : State) : ActsOn W s (execSec s) :=
  actsOn_finish (by decide) (CpuActs.refl.status _ (.inl (sameBU_setC _ _ (.refl _))))
theorem execAndAby_acts (base : Word) (s : State) : ActsOn W s (execAndAby base s) :=
  actsOn_readAt (by decide) (actsAlways_logicA _) (CpuActs.refl.indexed _ _ _)
theorem execUnop3A_acts (s : State) : ActsOn W s (execUnop3A s) :=
  actsOn_unofficial (.inl (by decide)) .refl
theorem execRlaAby_acts (base : Word) (s : State) : ActsOn W s (execRlaAby base s) :=
  actsOn_unofficial (.inl (by decide)) (CpuActs.refl.indexed _ _ _)
theorem execUnop3C_acts (base : Word) (s : State) : ActsOn W s (execUnop3C base s) :=
  actsOn_unofficial (.inl (by decide)) (CpuActs.refl.indexed _ _ _)
theorem execAndAbx_acts (base : Word) (s : State) : ActsOn W s (execAndAbx base s) :=
  actsOn_readAt (by decide) (actsAlways_logicA _) (CpuActs.refl.indexed _ _ _)
theorem execRolAbx_acts (base : Word) (s : State) : ActsOn W s (execRolAbx base s) :=
  actsOn_modifyAt (by decide) sameBU_rolByte (CpuActs.refl.indexed _ _ _)
theorem execRlaAbx_acts (base : Word) (s : State) : ActsOn W s (execRlaAbx base s) :=
  actsOn_unofficial (.inl (by decide)) (CpuActs.refl.indexed _ _ _)
theorem execRti_acts (s : State) : ActsOn W s (execRti s) :=
  actsOn_finish (by decide) (CpuActs.refl.returnFromException)
theorem execEorIzx_acts (z : Byte) (s : State) : ActsOn W s (execEorIzx z s) :=
  actsOn_readAt (by decide) (actsAlways_logicA _) (CpuActs.refl.zeroPagePointer _)
theorem execJam42_acts (s : State) : ActsOn W s (execJam42 s) :=
  actsOn_unofficial (.inl (by decide)) .refl
theorem execSreIzx_acts (z : Byte) (s : State) : ActsOn W s (execSreIzx z s) :=
  actsOn_unofficial (.inr (by decide)) (CpuActs.refl.zeroPagePointer _)
theorem execUnop44_acts (z : Byte) (s : State) : ActsOn W s (execUnop44 z s) :=
  actsOn_unofficial (.inl (by decide)) .refl
theorem execEorZp0_acts (z : Byte) (s : State) : ActsOn W s (execEorZp0 z s) :=
  actsOn_readAt (by decide) (actsAlways_logicA _) .refl
theorem execLsrZp0_acts (z : Byte) (s : State) : ActsOn W s (execLsrZp0 z s) :=
  actsOn_modifyAt (by decide) sameBU_lsrByte .refl
theorem execSreZp0_acts (z : Byte) (s : State) : ActsOn W s (execSreZp0 z s) :=
  actsOn_unofficial (.inl (by decide)) .refl
theorem execPha_acts (s : State) : ActsOn W s (execPha s) :=
  actsOn_finish (by decide) (CpuActs.refl.push _)
theorem execEorImm_acts (imm : Byte) (s : State) : ActsOn W s (execEorImm imm s) :=
  actsOn_onImm imm (by decide) (actsAlways_logicA _)
theorem execLsrImp_acts (s : State) : ActsOn W s (execLsrImp s) :=
  actsOn_modifyA (by decide) sameBU_lsrByte
theorem execAlr_acts (imm : Byte) (s : State) : ActsOn W s (execAlr imm s) :=
  actsOn_unofficial (.inl (by decide)) .refl
theorem execJmpAbs_acts (addr : Word) (s : State) : ActsOn W s (execJmpAbs addr s) :=
  actsOn_finish (by decide) (CpuActs.refl.setPC _)
theorem execEorAbs_acts (addr : Word) (s : State) : ActsOn W s (execEorAbs addr s) :=
  actsOn_readAt (by decide) (actsAlways_logicA _) .refl
theorem execLsrAbs_acts (addr : Word) (s : State) : ActsOn W s (execLsrAbs addr s) :=
  actsOn_modifyAt (by decide) sameBU_lsrByte .refl
theorem execSreAbs_acts (addr : Word) (s : State) : ActsOn W s (execSreAbs addr s) :=
  actsOn_unofficial (.inl (by decide)) .refl
theorem execBvc_acts (off : Byte) (s : State) : ActsOn W s (execBvc off s) :=
  actsOn_branchIf _ _
theorem execEorIzy_acts (z : Byte) (s : State) : ActsOn W s (execEorIzy z s) :=
  actsOn_readAt (by decide) (actsAlways_logicA _) (CpuActs.refl.atIzy _ _)
theorem execJam52_acts (s : State) : ActsOn W s (execJam52 s) :=
  actsOn_unofficial (.inl (by decide)) .refl
theorem execSreIzy_acts (z : Byte) (s : State) : ActsOn W s (execSreIzy z s) :=
  actsOn_unofficial (.inr (by decide)) (CpuActs.refl.atIzy _ _)
theorem execUnop54_acts (z : Byte) (s : State) : ActsOn W s (execUnop54 z s) :=
  actsOn_unofficial (.inl (by decide)) .refl
theorem execEorZpx_acts (z : Byte) (s : State) : ActsOn W s (execEorZpx z s) :=
  actsOn_readAt (by decide) (actsAlways_logicA _) .refl
theorem execLsrZpx_acts (z : Byte) (s : State) : ActsOn W s (execLsrZpx z s) :=
  actsOn_modifyAt (by decide) sameBU_lsrByte .refl
theorem execSreZpx_acts (z : Byte) (s : State) : ActsOn W s (execSreZpx z s) :=
  actsOn_unofficial (.inl (by decide)) .refl
theorem execCli_acts (hW : W) (s : State) : ActsOn W s (execCli s) :=
  actsOn_finish (by decide) ((CpuActs.refl.window _ hW).status _ (.inl (sameBU_setI _ _ (.refl _))))
theorem execEorAby_acts (base : Word) (s : State) : ActsOn W s (execEorAby base s) :=
  actsOn_readAt (by decide) (actsAlways_logicA _) (CpuActs.refl.indexed _ _ _)
theorem execUnop5A_acts (s : State) : ActsOn W s (execUnop5A s) :=
  actsOn_unofficial (.inl (by decide)) .refl
theorem execSreAby_acts (base : Word) (s : State) : ActsOn W s (execSreAby base s) :=
  actsOn_unofficial (.inl (by decide)) (CpuActs.refl.indexed _ _ _)
theorem execUnop5C_acts (base : Word) (s : State) : ActsOn W s (execUnop5C base s) :=
  actsOn_unofficial (.inl (by decide)) (CpuActs.refl.indexed _ _ _)
theorem execEorAbx_acts (base : Word) (s : State) : ActsOn W s (execEorAbx base s) :=
  actsOn_readAt (by decide) (actsAlways_logicA _) (CpuActs.refl.indexed _ _ _)
theorem execLsrAbx_acts (base : Word) (s : State) : ActsOn W s (execLsrAbx base s) :=
  actsOn_modifyAt (by decide) sameBU_lsrByte (CpuActs.refl.indexed _ _ _)
theorem execSreAbx_acts (base : Word) (s : State) : ActsOn W s (execSreAbx base s) :=
  actsOn_unofficial (.inl (by decide)) (CpuActs.refl.indexed _ _ _)
theorem execRts_acts (s : State) : ActsOn W s (execRts s) :=
  actsOn_finish (by decide) (CpuActs.refl.pullWord.setPC _)
theorem execAdcIzx_acts (z : Byte) (s : State) : ActsOn W s (execAdcIzx z s) :=
  actsOn_readAt (by decide) actsAlways_adc (CpuActs.refl.zeroPagePointer _)
theorem execJam62_acts (s : State) : ActsOn W s (execJam62 s) :=
  actsOn_unofficial (.inl (by decide)) .refl
theorem execRraIzx_acts (z : Byte) (s : State) : ActsOn W s (execRraIzx z s) :=
  actsOn_unofficial (.inr (by decide)) (CpuActs.refl.zeroPagePointer _)
theorem execUnop64_acts (z : Byte) (s : State) : ActsOn W s (execUnop64 z s) :=
  actsOn_unofficial (.inl (by decide)) .refl
theorem execAdcZp0_acts (z : Byte) (s : State) : ActsOn W s (execAdcZp0 z s) :=
  actsOn_readAt (by decide) actsAlways_adc .refl
theorem execRorZp0_acts (z : Byte) (s : State) : ActsOn W s (execRorZp0 z s) :=
  actsOn_modifyAt (by decide) sameBU_rorByte .refl
theorem execRraZp0_acts (z : Byte) (s : State) : ActsOn W s (execRraZp0 z s) :=
  actsOn_unofficial (.inl (by decide)) .refl
theorem execPla_acts (s : State) : ActsOn W s (execPla s) :=
  actsOn_finish (by decide) (CpuActs.refl.pull.loadA _)
theorem execAdcImm_acts (imm : Byte) (s : State) : ActsOn W s (execAdcImm imm s) :=
  actsOn_onImm imm (by decide) actsAlways_adc
theorem execRorImp_acts (s : State) : ActsOn W s (execRorImp s) :=
  actsOn_modifyA (by decide) sameBU_rorByte
theorem execArr_acts (imm : Byte) (s : State) : ActsOn W s (execArr imm s) :=
  actsOn_unofficial (.inl (by decide)) .refl
theorem execJmpInd_acts (ptr : Word) (s : State) : ActsOn W s (execJmpInd ptr s) :=
  actsOn_finish (by decide) (((CpuActs.refl.read _).read _).setPC _)
theorem execAdcAbs_acts (addr : Word) (s : State) : ActsOn W s (execAdcAbs addr s) :=
  actsOn_readAt (by decide) actsAlways_adc .refl
theorem execRorAbs_acts (addr : Word) (s : State) : ActsOn W s (execRorAbs addr s) :=
  actsOn_modifyAt (by decide) sameBU_rorByte .refl
theorem execRraAbs_acts (addr : Word) (s : State) : ActsOn W s (execRraAbs addr s) :=
  actsOn_unofficial (.inl (by decide)) .refl
theorem execBvs_acts (off : Byte) (s : State) : ActsOn W s (execBvs off s) :=
  actsOn_branchIf _ _
theorem execAdcIzy_acts (z : Byte) (s : State) : ActsOn W s (execAdcIzy z s) :=
  actsOn_readAt (by decide) actsAlways_adc (CpuActs.refl.atIzy _ _)
theorem execJam72_acts (s : State) : ActsOn W s (execJam72 s) :=
  actsOn_unofficial (.inl (by decide)) .refl
theorem execRraIzy_acts (z : Byte) (s : State) : ActsOn W s (execRraIzy z s) :=
  actsOn_unofficial (.inr (by decide)) (CpuActs.refl.atIzy _ _)
theorem execUnop74_acts (z : Byte) (s : State) : ActsOn W s (execUnop74 z s) :=
  actsOn_unofficial (.inl (by decide)) .refl
theorem execAdcZpx_acts (z : Byte) (s : State) : ActsOn W s (execAdcZpx z s) :=
  actsOn_readAt (by decide) actsAlways_adc .refl
theorem execRorZpx_acts (z : Byte) (s : State) : ActsOn W s (execRorZpx z s) :=
  actsOn_modifyAt (by decide) sameBU_rorByte .refl
theorem execRraZpx_acts (z : Byte) (s : State) : ActsOn W s (execRraZpx z s) :=
  actsOn_unofficial (.inl (by decide)) .refl
theorem execSei_acts (hW : W) (s : State) : ActsOn W s (execSei s) :=
  actsOn_finish (by decide) ((CpuActs.refl.window _ hW).status _ (.inl (sameBU_setI _ _ (.refl _))))
theorem execAdcAby_acts (base : Word) (s : State) : ActsOn W s (execAdcAby base s) :=
  actsOn_readAt (by decide) actsAlways_adc (CpuActs.refl.indexed _ _ _)
theorem execUnop7A_acts (s : State) : ActsOn W s (execUnop7A s) :=
  actsOn_unofficial (.inl (by decide)) .refl
theorem execRraAby_acts (base : Word) (s : State) : ActsOn W s (execRraAby base s) :=
  actsOn_unofficial (.inl (by decide)) (CpuActs.refl.indexed _ _ _)
theorem execUnop7C_acts (base : Word) (s : State) : ActsOn W s (execUnop7C base s) :=
  actsOn_unofficial (.inl (by decide)) (CpuActs.refl.indexed _ _ _)
theorem execAdcAbx_acts (base : Word) (s : State) : ActsOn W s (execAdcAbx base s) :=
  actsOn_readAt (by decide) actsAlways_adc (CpuActs.refl.indexed _ _ _)
theorem execRorAbx_acts (base : Word) (s : State) : ActsOn W s (execRorAbx base s) :=
  actsOn_modifyAt (by decide) sameBU_rorByte (CpuActs.refl.indexed _ _ _)
theorem execRraAbx_acts (base : Word) (s : State) : ActsOn W s (execRraAbx base s) :=
  actsOn_unofficial (.inl (by decide)) (CpuActs.refl.indexed _ _ _)
theorem execUnop80_acts (imm : Byte) (s : State) : ActsOn W s (execUnop80 imm s) :=
  actsOn_unofficial (.inl (by decide)) .refl
theorem execStaIzx_acts (z : Byte) (s : State) : ActsOn W s (execStaIzx z s) :=
  actsOn_writeAt (by decide) (CpuActs.refl.zeroPagePointer _)
theorem execUnop82_acts (imm : Byte) (s : State) : ActsOn W s (execUnop82 imm s) :=
  actsOn_unofficial (.inl (by decide)) .refl
theorem execSaxIzx_acts (z : Byte) (s : State) : ActsOn W s (execSaxIzx z s) :=
  actsOn_unofficial (.inl (by decide)) (CpuActs.refl.zeroPagePointer _)
theorem execStyZp0_acts (z : Byte) (s : State) : ActsOn W s (execStyZp0 z s) :=
  actsOn_writeAt (by decide) .refl
theorem execStaZp0_acts (z : Byte) (s : State) : ActsOn W s (execStaZp0 z s) :=
  actsOn_writeAt (by decide) .refl
theorem execStxZp0_acts (z : Byte) (s : State) : ActsOn W s (execStxZp0 z s) :=
  actsOn_writeAt (by decide) .refl
theorem execSaxZp0_acts (z : Byte) (s : State) : ActsOn W s (execSaxZp0 z s) :=
  actsOn_unofficial (.inl (by decide)) .refl
theorem execDey_acts (s : State) : ActsOn W s (execDey s) :=
  actsOn_finish (by decide) (CpuActs.refl.loadY _)
theorem execUnop89_acts (imm : Byte) (s : State) : ActsOn W s (execUnop89 imm s) :=
  actsOn_unofficial (.inl (by decide)) .refl
theorem execTxa_acts (s : State) : ActsOn W s (execTxa s) :=
  actsOn_finish (by decide) (CpuActs.refl.loadA _)
theorem execAne_acts (imm : Byte) (s : State) : ActsOn W s (execAne imm s) :=
  actsOn_unofficial (.inl (by decide)) .refl
theorem execStyAbs_acts (addr : Word) (s : State) : ActsOn W s (execStyAbs addr s) :=
  actsOn_writeAt (by decide) .refl
theorem execStaAbs_acts (addr : Word) (s : State) : ActsOn W s (execStaAbs addr s) :=
  actsOn_writeAt (by decide) .refl
theorem execStxAbs_acts (addr : Word) (s : State) : ActsOn W s (execStxAbs addr s) :=
  actsOn_writeAt (by decide) .refl
theorem execSaxAbs_acts (addr : Word) (s : State) : ActsOn W s (execSaxAbs addr s) :=
  actsOn_unofficial (.inl (by decide)) .refl
theorem execBcc_acts (off : Byte) (s : State) : ActsOn W s (execBcc off s) :=
  actsOn_branchIf _ _
theorem execStaIzy_acts (z : Byte) (s : State) : ActsOn W s (execStaIzy z s) :=
  actsOn_writeAt (by decide) (CpuActs.refl.atIzy _ _)
theorem execJam92_acts (s : State) : ActsOn W s (execJam92 s) :=
  actsOn_unofficial (.inl (by decide)) .refl
theorem execShaIzy_acts (z : Byte) (s : State) : ActsOn W s (execShaIzy z s) :=
  actsOn_unofficial (.inl (by decide)) (CpuActs.refl.atIzy _ _)
theorem execStyZpx_acts (z : Byte) (s : State) : ActsOn W s (execStyZpx z s) :=
  actsOn_writeAt (by decide) .refl
theorem execStaZpx_acts (z : Byte) (s : State) : ActsOn W s (execStaZpx z s) :=
  actsOn_writeAt (by decide) .refl
theorem execStxZpy_acts (z : Byte) (s : State) : ActsOn W s (execStxZpy z s) :=
  actsOn_writeAt (by decide) .refl
theorem execSaxZpy_acts (z : Byte) (s : State) : ActsOn W s (execSaxZpy z s) :=
  actsOn_unofficial (.inl (by decide)) .refl
theorem execTya_acts (s : State) : ActsOn W s (execTya s) :=
  actsOn_finish (by decide) (CpuActs.refl.loadA _)
theorem execStaAby_acts (base : Word) (s : State) : ActsOn W s (execStaAby base s) :=
  actsOn_writeAt (by decide) (CpuActs.refl.indexed _ _ _)
theorem execTxs_acts (s : State) : ActsOn W s (execTxs s) :=
  actsOn_finish (by decide) (CpuActs.refl.setSP _)
theorem execTas_acts (base : Word) (s : State) : ActsOn W s (execTas base s) :=
  actsOn_unofficial (.inl (by decide)) (CpuActs.refl.indexed _ _ _)
theorem execShy_acts (base : Word) (s : State) : ActsOn W s (execShy base s) :=
  actsOn_unofficial (.inl (by decide)) (CpuActs.refl.indexed _ _ _)
theorem execStaAbx_acts (base : Word) (s : State) : ActsOn W s (execStaAbx base s) :=
  actsOn_writeAt (by decide) (CpuActs.refl.indexed _ _ _)
theorem execShx_acts (base : Word) (s : State) : ActsOn W s (execShx base s) :=
  actsOn_unofficial (.inl (by decide)) (CpuActs.refl.indexed _ _ _)
theorem execShaAby_acts (base : Word) (s : State) : ActsOn W s (execShaAby base s) :=
  actsOn_unofficial (.inl (by decide)) (CpuActs.refl.indexed _ _ _)
theorem execLdyImm_acts (imm : Byte) (s : State) : ActsOn W s (execLdyImm imm s) :=
  actsOn_onImm imm (by decide) actsAlways_loadY
theorem execLdaIzx_acts (z : Byte) (s : State) : ActsOn W s (execLdaIzx z s) :=
  actsOn_readAt (by decide) actsAlways_loadA (CpuActs.refl.zeroPagePointer _)
theorem execLdxImm_acts (imm : Byte) (s : State) : ActsOn W s (execLdxImm imm s) :=
  actsOn_onImm imm (by decide) actsAlways_loadX
theorem execLaxIzx_acts (z : Byte) (s : State) : ActsOn W s (execLaxIzx z s) :=
  actsOn_unofficial (.inl (by decide)) (CpuActs.refl.zeroPagePointer _)
theorem execLdyZp0_acts (z : Byte) (s : State) : ActsOn W s (execLdyZp0 z s) :=
  actsOn_readAt (by decide) actsAlways_loadY .refl
theorem execLdaZp0_acts (z : Byte) (s : State) : ActsOn W s (execLdaZp0 z s) :=
  actsOn_readAt (by decide) actsAlways_loadA .refl
theorem execLdxZp0_acts (z : Byte) (s : State) : ActsOn W s (execLdxZp0 z s) :=
  actsOn_readAt (by decide) actsAlways_loadX .refl
theorem execLaxZp0_acts (z : Byte) (s : State) : ActsOn W s (execLaxZp0 z s) :=
  actsOn_unofficial (.inl (by decide)) .refl
theorem execTay_acts (s : State) : ActsOn W s (execTay s) :=
  actsOn_finish (by decide) (CpuActs.refl.loadY _)
theorem execLdaImm_acts (imm : Byte) (s : State) : ActsOn W s (execLdaImm imm s) :=
  actsOn_onImm imm (by decide) actsAlways_loadA
theorem execTax_acts (s : State) : ActsOn W s (execTax s) :=
  actsOn_finish (by decide) (CpuActs.refl.loadX _)
theorem execLxa_acts (imm : Byte) (s : State) : ActsOn W s (execLxa imm s) :=
  actsOn_unofficial (.inl (by decide)) .refl
theorem execLdyAbs_acts (addr : Word) (s : State) : ActsOn W s (execLdyAbs addr s) :=
  actsOn_readAt (by decide) actsAlways_loadY .refl
theorem execLdaAbs_acts (addr : Word) (s : State) : ActsOn W s (execLdaAbs addr s) :=
  actsOn_readAt (by decide) actsAlways_loadA .refl
theorem execLdxAbs_acts (addr : Word) (s : State) : ActsOn W s (execLdxAbs addr s) :=
  actsOn_readAt (by decide) actsAlways_loadX .refl
theorem execLaxAbs_acts (addr : Word) (s : State) : ActsOn W s (execLaxAbs addr s) :=
  actsOn_unofficial (.inl (by decide)) .refl
theorem execBcs_acts (off : Byte) (s : State) : ActsOn W s (execBcs off s) :=
  actsOn_branchIf _ _
theorem execLdaIzy_acts (z : Byte) (s : State) : ActsOn W s (execLdaIzy z s) :=
  actsOn_readAt (by decide) actsAlways_loadA (CpuActs.refl.atIzy _ _)
theorem execJamB2_acts (s : State) : ActsOn W s (execJamB2 s) :=
  actsOn_unofficial (.inl (by decide)) .refl
theorem execLaxIzy_acts (z : Byte) (s : State) : ActsOn W s (execLaxIzy z s) :=
  actsOn_unofficial (.inl (by decide)) (CpuActs.refl.atIzy _ _)
theorem execLdyZpx_acts (z : Byte) (s : State) : ActsOn W s (execLdyZpx z s) :=
  actsOn_readAt (by decide) actsAlways_loadY .refl
theorem execLdaZpx_acts (z : Byte) (s : State) : ActsOn W s (execLdaZpx z s) :=
  actsOn_readAt (by decide) actsAlways_loadA .refl
theorem execLdxZpy_acts (z : Byte) (s : State) : ActsOn W s (execLdxZpy z s) :=
  actsOn_readAt (by decide) actsAlways_loadX .refl
theorem execLaxZpy_acts (z : Byte) (s : State) : ActsOn W s (execLaxZpy z s) :=
  actsOn_unofficial (.inl (by decide)) .refl
theorem execClv_acts (s : State) : ActsOn W s (execClv s) :=
  actsOn_finish (by decide) (CpuActs.refl.status _ (.inl (sameBU_setV _ _ (.refl _))))
theorem execLdaAby_acts (base : Word) (s : State) : ActsOn W s (execLdaAby base s) :=
  actsOn_readAt (by decide) actsAlways_loadA (CpuActs.refl.indexed _ _ _)
theorem execTsx_acts (s : State) : ActsOn W s (execTsx s) :=
  actsOn_finish (by decide) (CpuActs.refl.loadX _)
theorem execLas_acts (base : Word) (s : State) : ActsOn W s (execLas base s) :=
  actsOn_unofficial (.inl (by decide)) (CpuActs.refl.indexed _ _ _)
theorem execLdyAbx_acts (base : Word) (s : State) : ActsOn W s (execLdyAbx base s) :=
  actsOn_readAt (by decide) actsAlways_loadY (CpuActs.refl.indexed _ _ _)
theorem execLdaAbx_acts (base : Word) (s : State) : ActsOn W s (execLdaAbx base s) :=
  actsOn_readAt (by decide) actsAlways_loadA (CpuActs.refl.indexed _ _ _)
theorem execLdxAby_acts (base : Word) (s : State) : ActsOn W s (execLdxAby base s) :=
  actsOn_readAt (by decide) actsAlways_loadX (CpuActs.refl.indexed _ _ _)
theorem execLaxAby_acts (base : Word) (s : State) : ActsOn W s (execLaxAby base s) :=
  actsOn_unofficial (.inl (by decide)) (CpuActs.refl.indexed _ _ _)
theorem execCpyImm_acts (imm : Byte) (s : State) : ActsOn W s (execCpyImm imm s) :=
  actsOn_onImm imm (by decide) (actsAlways_compare _)
theorem execCmpIzx_acts (z : Byte) (s : State) : ActsOn W s (execCmpIzx z s) :=
  actsOn_readAt (by decide) (actsAlways_compare _) (CpuActs.refl.zeroPagePointer _)
theorem execUnopC2_acts (imm : Byte) (s : State) : ActsOn W s (execUnopC2 imm s) :=
  actsOn_unofficial (.inl (by decide)) .refl
theorem execDcpIzx_acts (z : Byte) (s : State) : ActsOn W s (execDcpIzx z s) :=
  actsOn_unofficial (.inr (by decide)) (CpuActs.refl.zeroPagePointer _)
theorem execCpyZp0_acts (z : Byte) (s : State) : ActsOn W s (execCpyZp0 z s) :=
  actsOn_readAt (by decide) (actsAlways_compare _) .refl
theorem execCmpZp0_acts (z : Byte) (s : State) : ActsOn W s (execCmpZp0 z s) :=
  actsOn_readAt (by decide) (actsAlways_compare _) .refl
theorem execDecZp0_acts (z : Byte) (s : State) : ActsOn W s (execDecZp0 z s) :=
  actsOn_modifyAt (by decide) sameBU_decByte .refl
theorem execDcpZp0_acts (z : Byte) (s : State) : ActsOn W s (execDcpZp0 z s) :=
  actsOn_unofficial (.inl (by decide)) .refl
theorem execIny_acts (s : State) : ActsOn W s (execIny s) :=
  actsOn_finish (by decide) (CpuActs.refl.loadY _)
theorem execCmpImm_acts (imm : Byte) (s : State) : ActsOn W s (execCmpImm imm s) :=
  actsOn_onImm imm (by decide) (actsAlways_compare _)
theorem execDex_acts (s : State) : ActsOn W s (execDex s) :=
  actsOn_finish (by decide) (CpuActs.refl.loadX _)
theorem execSbx_acts (imm : Byte) (s : State) : ActsOn W s (execSbx imm s) :=
  actsOn_unofficial (.inl (by decide)) .refl
theorem execCpyAbs_acts (addr : Word) (s : State) : ActsOn W s (execCpyAbs addr s) :=
  actsOn_readAt (by decide) (actsAlways_compare _) .refl
theorem execCmpAbs_acts (addr : Word) (s : State) : ActsOn W s (execCmpAbs addr s) :=
  actsOn_readAt (by decide) (actsAlways_compare _) .refl
theorem execDecAbs_acts (addr : Word) (s : State) : ActsOn W s (execDecAbs addr s) :=
  actsOn_modifyAt (by decide) sameBU_decByte .refl
theorem execDcpAbs_acts (addr : Word) (s : State) : ActsOn W s (execDcpAbs addr s) :=
  actsOn_unofficial (.inl (by decide)) .refl
theorem execBne_acts (off : Byte) (s : State) : ActsOn W s (execBne off s) :=
  actsOn_branchIf _ _
theorem execCmpIzy_acts (z : Byte) (s : State) : ActsOn W s (execCmpIzy z s) :=
  actsOn_readAt (by decide) (actsAlways_compare _) (CpuActs.refl.atIzy _ _)
theorem execJamD2_acts (s : State) : ActsOn W s (execJamD2 s) :=
  actsOn_unofficial (.inl (by decide)) .refl
theorem execDcpIzy_acts (z : Byte) (s : State) : ActsOn W s (execDcpIzy z s) :=
  actsOn_unofficial (.inr (by decide)) (CpuActs.refl.atIzy _ _)
theorem execUnopD4_acts (z : Byte) (s : State) : ActsOn W s (execUnopD4 z s) :=
  actsOn_unofficial (.inl (by decide)) .refl
theorem execCmpZpx_acts (z : Byte) (s : State) : ActsOn W s (execCmpZpx z s) :=
  actsOn_readAt (by decide) (actsAlways_compare _) .refl
theorem execDecZpx_acts (z : Byte) (s : State) : ActsOn W s (execDecZpx z s) :=
  actsOn_modifyAt (by decide) sameBU_decByte .refl
theorem execDcpZpx_acts (z : Byte) (s : State) : ActsOn W s (execDcpZpx z s) :=
  actsOn_unofficial (.inl (by decide)) .refl
theorem execCld_acts (s : State) : ActsOn W s (execCld s) :=
  actsOn_finish (by decide) (CpuActs.refl.status _ (.inl (sameBU_setD _ _ (.refl _))))
theorem execCmpAby_acts (base : Word) (s : State) : ActsOn W s (execCmpAby base s) :=
  actsOn_readAt (by decide) (actsAlways_compare _) (CpuActs.refl.indexed _ _ _)
theorem execUnopDA_acts (s : State) : ActsOn W s (execUnopDA s) :=
  actsOn_unofficial (.inl (by decide)) .refl
theorem execDcpAby_acts (base : Word) (s : State) : ActsOn W s (execDcpAby base s) :=
  actsOn_unofficial (.inl (by decide)) (CpuActs.refl.indexed _ _ _)
theorem execUnopDC_acts (base : Word) (s : State) : ActsOn W s (execUnopDC base s) :=
  actsOn_unofficial (.inl (by decide)) (CpuActs.refl.indexed _ _ _)
theorem execCmpAbx_acts (base : Word) (s : State) : ActsOn W s (execCmpAbx base s) :=
  actsOn_readAt (by decide) (actsAlways_compare _) (CpuActs.refl.indexed _ _ _)
theorem execDecAbx_acts (base : Word) (s : State) : ActsOn W s (execDecAbx base s) :=
  actsOn_modifyAt (by decide) sameBU_decByte (CpuActs.refl.indexed _ _ _)
theorem execDcpAbx_acts (base : Word) (s : State) : ActsOn W s (execDcpAbx base s) :=
  actsOn_unofficial (.inl (by decide)) (CpuActs.refl.indexed _ _ _)
theorem execCpxImm_acts (imm : Byte) (s : State) : ActsOn W s (execCpxImm imm s) :=
  actsOn_onImm imm (by decide) (actsAlways_compare _)
theorem execSbcIzx_acts (z : Byte) (s : State) : ActsOn W s (execSbcIzx z s) :=
  actsOn_readAt (by decide) actsAlways_sbc (CpuActs.refl.zeroPagePointer _)
theorem execUnopE2_acts (imm : Byte) (s : State) : ActsOn W s (execUnopE2 imm s) :=
  actsOn_unofficial (.inl (by decide)) .refl
theorem execIscIzx_acts (z : Byte) (s : State) : ActsOn W s (execIscIzx z s) :=
  actsOn_unofficial (.inr (by decide)) (CpuActs.refl.zeroPagePointer _)
theorem execCpxZp0_acts (z : Byte) (s : State) : ActsOn W s (execCpxZp0 z s) :=
  actsOn_readAt (by decide) (actsAlways_compare _) .refl
theorem execSbcZp0_acts (z : Byte) (s : State) : ActsOn W s (execSbcZp0 z s) :=
  actsOn_readAt (by decide) actsAlways_sbc .refl
theorem execIncZp0_acts (z : Byte) (s : State) : ActsOn W s (execIncZp0 z s) :=
  actsOn_modifyAt (by decide) sameBU_incByte .refl
theorem execIscZp0_acts (z : Byte) (s : State) : ActsOn W s (execIscZp0 z s) :=
  actsOn_unofficial (.inl (by decide)) .refl
theorem execInx_acts (s : State) : ActsOn W s (execInx s) :=
  actsOn_finish (by decide) (CpuActs.refl.loadX _)
theorem execSbcImm_acts (imm : Byte) (s : State) : ActsOn W s (execSbcImm imm s) :=
  actsOn_onImm imm (by decide) actsAlways_sbc
theorem execNop_acts (s : State) : ActsOn W s (execNop s) :=
  actsOn_finish (by decide) .refl
theorem execUsbc_acts (imm : Byte) (s : State) : ActsOn W s (execUsbc imm s) :=
  actsOn_unofficial (.inl (by decide)) .refl
theorem execCpxAbs_acts (addr : Word) (s : State) : ActsOn W s (execCpxAbs addr s) :=
  actsOn_readAt (by decide) (actsAlways_compare _) .refl
theorem execSbcAbs_acts (addr : Word) (s : State) : ActsOn W s (execSbcAbs addr s) :=
  actsOn_readAt (by decide) actsAlways_sbc .refl
theorem execIncAbs_acts (addr : Word) (s : State) : ActsOn W s (execIncAbs addr s) :=
  actsOn_modifyAt (by decide) sameBU_incByte .refl
theorem execIscAbs_acts (addr : Word) (s : State) : ActsOn W s (execIscAbs addr s) :=
  actsOn_unofficial (.inl (by decide)) .refl
theorem execBeq_acts (off : Byte) (s : State) : ActsOn W s (execBeq off s) :=
  actsOn_branchIf _ _
theorem execSbcIzy_acts (z : Byte) (s : State) : ActsOn W s (execSbcIzy z s) :=
  actsOn_readAt (by decide) actsAlways_sbc (CpuActs.refl.atIzy _ _)
theorem execJamF2_acts (s : State) : ActsOn W s (execJamF2 s) :=
  actsOn_unofficial (.inl (by decide)) .refl
theorem execIscIzy_acts (z : Byte) (s : State) : ActsOn W s (execIscIzy z s) :=
  actsOn_unofficial (.inr (by decide)) (CpuActs.refl.atIzy _ _)
theorem execUnopF4_acts (z : Byte) (s : State) : ActsOn W s (execUnopF4 z s) :=
  actsOn_unofficial (.inl (by decide)) .refl
theorem execSbcZpx_acts (z : Byte) (s : State) : ActsOn W s (execSbcZpx z s) :=
  actsOn_readAt (by decide) actsAlways_sbc .refl
theorem execIncZpx_acts (z : Byte) (s : State) : ActsOn W s (execIncZpx z s) :=
  actsOn_modifyAt (by decide) sameBU_incByte .refl
theorem execIscZpx_acts (z : Byte) (s : State) : ActsOn W s (execIscZpx z s) :=
  actsOn_unofficial (.inl (by decide)) .refl
theorem execSed_acts (s : State) : ActsOn W s (execSed s) :=
  actsOn_finish (by decide) (CpuActs.refl.status _ (.inl (sameBU_setD _ _ (.refl _))))
theorem execSbcAby_acts (base : Word) (s : State) : ActsOn W s (execSbcAby base s) :=
  actsOn_readAt (by decide) actsAlways_sbc (CpuActs.refl.indexed _ _ _)
theorem execUnopFA_acts (s : State) : ActsOn W s (execUnopFA s) :=
  actsOn_unofficial (.inl (by decide)) .refl
theorem execIscAby_acts (base : Word) (s : State) : ActsOn W s (execIscAby base s) :=
  actsOn_unofficial (.inl (by decide)) (CpuActs.refl.indexed _ _ _)
theorem execUnopFC_acts (base : Word) (s : State) : ActsOn W s (execUnopFC base s) :=
  actsOn_unofficial (.inl (by decide)) (CpuActs.refl.indexed _ _ _)
theorem execSbcAbx_acts (base : Word) (s : State) : ActsOn W s (execSbcAbx base s) :=
  actsOn_readAt (by decide) actsAlways_sbc (CpuActs.refl.indexed _ _ _)
theorem execIncAbx_acts (base : Word) (s : State) : ActsOn W s (execIncAbx base s) :=
  actsOn_modifyAt (by decide) sameBU_incByte (CpuActs.refl.indexed _ _ _)
theorem execIscAbx_acts (base : Word) (s : State) : ActsOn W s (execIscAbx base s) :=
  actsOn_unofficial (.inl (by decide)) (CpuActs.refl.indexed _ _ _)

/-- What every instruction can do (R283): its next state is reached by actions of the CPU, of which only SEI, CLI and PLP
set a latency window (R293, R296). -/
theorem exec_acts (i : Instr) (s : State) : ActsOn (i = .sei ∨ i = .cli ∨ i = .plp) s (exec i s) :=
  match i with
  | .brk => execBrk_acts s
  | .oraIzx z => execOraIzx_acts z s
  | .jam02 => execJam02_acts s
  | .sloIzx z => execSloIzx_acts z s
  | .unop04 z => execUnop04_acts z s
  | .oraZp0 z => execOraZp0_acts z s
  | .aslZp0 z => execAslZp0_acts z s
  | .sloZp0 z => execSloZp0_acts z s
  | .php => execPhp_acts s
  | .oraImm imm => execOraImm_acts imm s
  | .aslImp => execAslImp_acts s
  | .anc0B imm => execAnc0B_acts imm s
  | .unop0C addr => execUnop0C_acts addr s
  | .oraAbs addr => execOraAbs_acts addr s
  | .aslAbs addr => execAslAbs_acts addr s
  | .sloAbs addr => execSloAbs_acts addr s
  | .bpl off => execBpl_acts off s
  | .oraIzy z => execOraIzy_acts z s
  | .jam12 => execJam12_acts s
  | .sloIzy z => execSloIzy_acts z s
  | .unop14 z => execUnop14_acts z s
  | .oraZpx z => execOraZpx_acts z s
  | .aslZpx z => execAslZpx_acts z s
  | .sloZpx z => execSloZpx_acts z s
  | .clc => execClc_acts s
  | .oraAby base => execOraAby_acts base s
  | .unop1A => execUnop1A_acts s
  | .sloAby base => execSloAby_acts base s
  | .unop1C base => execUnop1C_acts base s
  | .oraAbx base => execOraAbx_acts base s
  | .aslAbx base => execAslAbx_acts base s
  | .sloAbx base => execSloAbx_acts base s
  | .jsr addr => execJsr_acts addr s
  | .andIzx z => execAndIzx_acts z s
  | .jam22 => execJam22_acts s
  | .rlaIzx z => execRlaIzx_acts z s
  | .bitZp0 z => execBitZp0_acts z s
  | .andZp0 z => execAndZp0_acts z s
  | .rolZp0 z => execRolZp0_acts z s
  | .rlaZp0 z => execRlaZp0_acts z s
  | .plp => execPlp_acts (by simp) s
  | .andImm imm => execAndImm_acts imm s
  | .rolImp => execRolImp_acts s
  | .anc2B imm => execAnc2B_acts imm s
  | .bitAbs addr => execBitAbs_acts addr s
  | .andAbs addr => execAndAbs_acts addr s
  | .rolAbs addr => execRolAbs_acts addr s
  | .rlaAbs addr => execRlaAbs_acts addr s
  | .bmi off => execBmi_acts off s
  | .andIzy z => execAndIzy_acts z s
  | .jam32 => execJam32_acts s
  | .rlaIzy z => execRlaIzy_acts z s
  | .unop34 z => execUnop34_acts z s
  | .andZpx z => execAndZpx_acts z s
  | .rolZpx z => execRolZpx_acts z s
  | .rlaZpx z => execRlaZpx_acts z s
  | .sec => execSec_acts s
  | .andAby base => execAndAby_acts base s
  | .unop3A => execUnop3A_acts s
  | .rlaAby base => execRlaAby_acts base s
  | .unop3C base => execUnop3C_acts base s
  | .andAbx base => execAndAbx_acts base s
  | .rolAbx base => execRolAbx_acts base s
  | .rlaAbx base => execRlaAbx_acts base s
  | .rti => execRti_acts s
  | .eorIzx z => execEorIzx_acts z s
  | .jam42 => execJam42_acts s
  | .sreIzx z => execSreIzx_acts z s
  | .unop44 z => execUnop44_acts z s
  | .eorZp0 z => execEorZp0_acts z s
  | .lsrZp0 z => execLsrZp0_acts z s
  | .sreZp0 z => execSreZp0_acts z s
  | .pha => execPha_acts s
  | .eorImm imm => execEorImm_acts imm s
  | .lsrImp => execLsrImp_acts s
  | .alr imm => execAlr_acts imm s
  | .jmpAbs addr => execJmpAbs_acts addr s
  | .eorAbs addr => execEorAbs_acts addr s
  | .lsrAbs addr => execLsrAbs_acts addr s
  | .sreAbs addr => execSreAbs_acts addr s
  | .bvc off => execBvc_acts off s
  | .eorIzy z => execEorIzy_acts z s
  | .jam52 => execJam52_acts s
  | .sreIzy z => execSreIzy_acts z s
  | .unop54 z => execUnop54_acts z s
  | .eorZpx z => execEorZpx_acts z s
  | .lsrZpx z => execLsrZpx_acts z s
  | .sreZpx z => execSreZpx_acts z s
  | .cli => execCli_acts (by simp) s
  | .eorAby base => execEorAby_acts base s
  | .unop5A => execUnop5A_acts s
  | .sreAby base => execSreAby_acts base s
  | .unop5C base => execUnop5C_acts base s
  | .eorAbx base => execEorAbx_acts base s
  | .lsrAbx base => execLsrAbx_acts base s
  | .sreAbx base => execSreAbx_acts base s
  | .rts => execRts_acts s
  | .adcIzx z => execAdcIzx_acts z s
  | .jam62 => execJam62_acts s
  | .rraIzx z => execRraIzx_acts z s
  | .unop64 z => execUnop64_acts z s
  | .adcZp0 z => execAdcZp0_acts z s
  | .rorZp0 z => execRorZp0_acts z s
  | .rraZp0 z => execRraZp0_acts z s
  | .pla => execPla_acts s
  | .adcImm imm => execAdcImm_acts imm s
  | .rorImp => execRorImp_acts s
  | .arr imm => execArr_acts imm s
  | .jmpInd ptr => execJmpInd_acts ptr s
  | .adcAbs addr => execAdcAbs_acts addr s
  | .rorAbs addr => execRorAbs_acts addr s
  | .rraAbs addr => execRraAbs_acts addr s
  | .bvs off => execBvs_acts off s
  | .adcIzy z => execAdcIzy_acts z s
  | .jam72 => execJam72_acts s
  | .rraIzy z => execRraIzy_acts z s
  | .unop74 z => execUnop74_acts z s
  | .adcZpx z => execAdcZpx_acts z s
  | .rorZpx z => execRorZpx_acts z s
  | .rraZpx z => execRraZpx_acts z s
  | .sei => execSei_acts (by simp) s
  | .adcAby base => execAdcAby_acts base s
  | .unop7A => execUnop7A_acts s
  | .rraAby base => execRraAby_acts base s
  | .unop7C base => execUnop7C_acts base s
  | .adcAbx base => execAdcAbx_acts base s
  | .rorAbx base => execRorAbx_acts base s
  | .rraAbx base => execRraAbx_acts base s
  | .unop80 imm => execUnop80_acts imm s
  | .staIzx z => execStaIzx_acts z s
  | .unop82 imm => execUnop82_acts imm s
  | .saxIzx z => execSaxIzx_acts z s
  | .styZp0 z => execStyZp0_acts z s
  | .staZp0 z => execStaZp0_acts z s
  | .stxZp0 z => execStxZp0_acts z s
  | .saxZp0 z => execSaxZp0_acts z s
  | .dey => execDey_acts s
  | .unop89 imm => execUnop89_acts imm s
  | .txa => execTxa_acts s
  | .ane imm => execAne_acts imm s
  | .styAbs addr => execStyAbs_acts addr s
  | .staAbs addr => execStaAbs_acts addr s
  | .stxAbs addr => execStxAbs_acts addr s
  | .saxAbs addr => execSaxAbs_acts addr s
  | .bcc off => execBcc_acts off s
  | .staIzy z => execStaIzy_acts z s
  | .jam92 => execJam92_acts s
  | .shaIzy z => execShaIzy_acts z s
  | .styZpx z => execStyZpx_acts z s
  | .staZpx z => execStaZpx_acts z s
  | .stxZpy z => execStxZpy_acts z s
  | .saxZpy z => execSaxZpy_acts z s
  | .tya => execTya_acts s
  | .staAby base => execStaAby_acts base s
  | .txs => execTxs_acts s
  | .tas base => execTas_acts base s
  | .shy base => execShy_acts base s
  | .staAbx base => execStaAbx_acts base s
  | .shx base => execShx_acts base s
  | .shaAby base => execShaAby_acts base s
  | .ldyImm imm => execLdyImm_acts imm s
  | .ldaIzx z => execLdaIzx_acts z s
  | .ldxImm imm => execLdxImm_acts imm s
  | .laxIzx z => execLaxIzx_acts z s
  | .ldyZp0 z => execLdyZp0_acts z s
  | .ldaZp0 z => execLdaZp0_acts z s
  | .ldxZp0 z => execLdxZp0_acts z s
  | .laxZp0 z => execLaxZp0_acts z s
  | .tay => execTay_acts s
  | .ldaImm imm => execLdaImm_acts imm s
  | .tax => execTax_acts s
  | .lxa imm => execLxa_acts imm s
  | .ldyAbs addr => execLdyAbs_acts addr s
  | .ldaAbs addr => execLdaAbs_acts addr s
  | .ldxAbs addr => execLdxAbs_acts addr s
  | .laxAbs addr => execLaxAbs_acts addr s
  | .bcs off => execBcs_acts off s
  | .ldaIzy z => execLdaIzy_acts z s
  | .jamB2 => execJamB2_acts s
  | .laxIzy z => execLaxIzy_acts z s
  | .ldyZpx z => execLdyZpx_acts z s
  | .ldaZpx z => execLdaZpx_acts z s
  | .ldxZpy z => execLdxZpy_acts z s
  | .laxZpy z => execLaxZpy_acts z s
  | .clv => execClv_acts s
  | .ldaAby base => execLdaAby_acts base s
  | .tsx => execTsx_acts s
  | .las base => execLas_acts base s
  | .ldyAbx base => execLdyAbx_acts base s
  | .ldaAbx base => execLdaAbx_acts base s
  | .ldxAby base => execLdxAby_acts base s
  | .laxAby base => execLaxAby_acts base s
  | .cpyImm imm => execCpyImm_acts imm s
  | .cmpIzx z => execCmpIzx_acts z s
  | .unopC2 imm => execUnopC2_acts imm s
  | .dcpIzx z => execDcpIzx_acts z s
  | .cpyZp0 z => execCpyZp0_acts z s
  | .cmpZp0 z => execCmpZp0_acts z s
  | .decZp0 z => execDecZp0_acts z s
  | .dcpZp0 z => execDcpZp0_acts z s
  | .iny => execIny_acts s
  | .cmpImm imm => execCmpImm_acts imm s
  | .dex => execDex_acts s
  | .sbx imm => execSbx_acts imm s
  | .cpyAbs addr => execCpyAbs_acts addr s
  | .cmpAbs addr => execCmpAbs_acts addr s
  | .decAbs addr => execDecAbs_acts addr s
  | .dcpAbs addr => execDcpAbs_acts addr s
  | .bne off => execBne_acts off s
  | .cmpIzy z => execCmpIzy_acts z s
  | .jamD2 => execJamD2_acts s
  | .dcpIzy z => execDcpIzy_acts z s
  | .unopD4 z => execUnopD4_acts z s
  | .cmpZpx z => execCmpZpx_acts z s
  | .decZpx z => execDecZpx_acts z s
  | .dcpZpx z => execDcpZpx_acts z s
  | .cld => execCld_acts s
  | .cmpAby base => execCmpAby_acts base s
  | .unopDA => execUnopDA_acts s
  | .dcpAby base => execDcpAby_acts base s
  | .unopDC base => execUnopDC_acts base s
  | .cmpAbx base => execCmpAbx_acts base s
  | .decAbx base => execDecAbx_acts base s
  | .dcpAbx base => execDcpAbx_acts base s
  | .cpxImm imm => execCpxImm_acts imm s
  | .sbcIzx z => execSbcIzx_acts z s
  | .unopE2 imm => execUnopE2_acts imm s
  | .iscIzx z => execIscIzx_acts z s
  | .cpxZp0 z => execCpxZp0_acts z s
  | .sbcZp0 z => execSbcZp0_acts z s
  | .incZp0 z => execIncZp0_acts z s
  | .iscZp0 z => execIscZp0_acts z s
  | .inx => execInx_acts s
  | .sbcImm imm => execSbcImm_acts imm s
  | .nop => execNop_acts s
  | .usbc imm => execUsbc_acts imm s
  | .cpxAbs addr => execCpxAbs_acts addr s
  | .sbcAbs addr => execSbcAbs_acts addr s
  | .incAbs addr => execIncAbs_acts addr s
  | .iscAbs addr => execIscAbs_acts addr s
  | .beq off => execBeq_acts off s
  | .sbcIzy z => execSbcIzy_acts z s
  | .jamF2 => execJamF2_acts s
  | .iscIzy z => execIscIzy_acts z s
  | .unopF4 z => execUnopF4_acts z s
  | .sbcZpx z => execSbcZpx_acts z s
  | .incZpx z => execIncZpx_acts z s
  | .iscZpx z => execIscZpx_acts z s
  | .sed => execSed_acts s
  | .sbcAby base => execSbcAby_acts base s
  | .unopFA => execUnopFA_acts s
  | .iscAby base => execIscAby_acts base s
  | .unopFC base => execUnopFC_acts base s
  | .sbcAbx base => execSbcAbx_acts base s
  | .incAbx base => execIncAbx_acts base s
  | .iscAbx base => execIscAbx_acts base s

end Sys2Proof.Machine
end

