-- ==== Sys2Proof/Laws/Ppu.lean ====
section
/-! SUPPORT. What one tick of the PPU can do: it changes no register that the CPU writes and no memory but one pixel of the
framebuffer; its position only moves by `Advance` and the odd-frame skip. -/

namespace Sys2Proof.Machine

/-- What no stage of a PPU tick changes: the CPU-written registers, the memories, the frame flags. -/
structure Ppu.Kept (p q : Ppu) : Prop where
  palette : q.palette = p.palette
  nametable : q.nametable = p.nametable
  oam : q.oam = p.oam
  patternRam : q.patternRam = p.patternRam
  ctrl : q.ctrl = p.ctrl
  mask : q.mask = p.mask
  t : q.t = p.t
  fineX : q.fineX = p.fineX
  w : q.w = p.w
  readBuffer : q.readBuffer = p.readBuffer
  oamaddr : q.oamaddr = p.oamaddr
  frameComplete : q.frameComplete = p.frameComplete
  oddFrame : q.oddFrame = p.oddFrame

/-- The position and the framebuffer, which only the last stages change. -/
structure Ppu.SamePlace (p q : Ppu) : Prop where
  scanline : q.scanline = p.scanline
  cycle : q.cycle = p.cycle
  framebuffer : q.framebuffer = p.framebuffer

/-- A stage of the tick before the pixel: registers, memories, position and framebuffer as before, and the sprite list in
its range if it was. -/
structure Ppu.Stage (p q : Ppu) : Prop where
  kept : p.Kept q
  place : p.SamePlace q
  sprites : p.sprites.length = 8 → q.sprites.length = 8
  sprCount : p.sprCount ≤ 8 → q.sprCount ≤ 8

theorem Ppu.Kept.refl (p : Ppu) : p.Kept p := ⟨rfl, rfl, rfl, rfl, rfl, rfl, rfl, rfl, rfl, rfl, rfl, rfl, rfl⟩

theorem Ppu.Kept.trans {p q r : Ppu} (h : p.Kept q) (h' : q.Kept r) : p.Kept r := by
  constructor
  · rw [h'.palette, h.palette]
  · rw [h'.nametable, h.nametable]
  · rw [h'.oam, h.oam]
  · rw [h'.patternRam, h.patternRam]
  · rw [h'.ctrl, h.ctrl]
  · rw [h'.mask, h.mask]
  · rw [h'.t, h.t]
  · rw [h'.fineX, h.fineX]
  · rw [h'.w, h.w]
  · rw [h'.readBuffer, h.readBuffer]
  · rw [h'.oamaddr, h.oamaddr]
  · rw [h'.frameComplete, h.frameComplete]
  · rw [h'.oddFrame, h.oddFrame]

theorem Ppu.Stage.refl (p : Ppu) : p.Stage p := ⟨.refl p, ⟨rfl, rfl, rfl⟩, id, id⟩

theorem Ppu.Stage.trans {p q r : Ppu} (h : p.Stage q) (h' : q.Stage r) : p.Stage r :=
  ⟨h.kept.trans h'.kept,
    ⟨h'.place.scanline.trans h.place.scanline, h'.place.cycle.trans h.place.cycle,
      h'.place.framebuffer.trans h.place.framebuffer⟩,
    fun k => h'.sprites (h.sprites k), fun k => h'.sprCount (h.sprCount k)⟩

/-- A change of fields that no other stage lemma speaks of. -/
theorem Ppu.Stage.plain {p q : Ppu} (hk : p.Kept q) (hp : p.SamePlace q) (hs : q.sprites = p.sprites)
    (hc : q.sprCount = p.sprCount) : p.Stage q := ⟨hk, hp, fun h => by rw [hs]; exact h, fun h => by rw [hc]; exact h⟩

theorem length_mapFirst (f : SpriteUnit → SpriteUnit) (n : Nat) (us : List SpriteUnit) :
    (mapFirst f n us).length = us.length := by
  induction us generalizing n with
  | nil => cases n <;> rfl
  | cons u us ih => cases n <;> simp [mapFirst, ih]

variable (c : Option Cartridge) (p : Ppu)

theorem Ppu.incrementX_stage : p.Stage p.incrementX := by
  unfold Ppu.incrementX
  repeat' split
  all_goals exact .plain (by constructor <;> rfl) ⟨rfl, rfl, rfl⟩ rfl rfl

theorem Ppu.incrementY_stage : p.Stage p.incrementY := by
  unfold Ppu.incrementY
  dsimp only
  repeat' split
  all_goals exact .plain (by constructor <;> rfl) ⟨rfl, rfl, rfl⟩ rfl rfl

theorem Ppu.transferX_stage : p.Stage p.transferX := by
  unfold Ppu.transferX
  split
  all_goals exact .plain (by constructor <;> rfl) ⟨rfl, rfl, rfl⟩ rfl rfl

theorem Ppu.transferY_stage : p.Stage p.transferY := by
  unfold Ppu.transferY
  split
  all_goals exact .plain (by constructor <;> rfl) ⟨rfl, rfl, rfl⟩ rfl rfl

theorem Ppu.loadShifters_stage : p.Stage p.loadShifters :=
  .plain (by constructor <;> rfl) ⟨rfl, rfl, rfl⟩ rfl rfl

theorem Ppu.updateShifters_stage : p.Stage p.updateShifters := by
  unfold Ppu.updateShifters
  dsimp only
  repeat' split
  all_goals
    exact ⟨by constructor <;> rfl, ⟨rfl, rfl, rfl⟩, fun h => by simpa only [length_mapFirst] using h, fun h => h⟩

theorem Ppu.backgroundFetch_stage (k : Nat) : p.Stage (p.backgroundFetch c k) := by
  unfold Ppu.backgroundFetch
  split
  · exact p.loadShifters_stage.trans (.plain (by constructor <;> rfl) ⟨rfl, rfl, rfl⟩ rfl rfl)
  · exact .plain (by constructor <;> rfl) ⟨rfl, rfl, rfl⟩ rfl rfl
  · exact .plain (by constructor <;> rfl) ⟨rfl, rfl, rfl⟩ rfl rfl
  · exact .plain (by constructor <;> rfl) ⟨rfl, rfl, rfl⟩ rfl rfl
  · exact p.incrementX_stage
  · exact .refl p

theorem Ppu.preRenderClear_stage : p.Stage p.preRenderClear := by
  unfold Ppu.preRenderClear
  split
  · exact ⟨by constructor <;> rfl, ⟨rfl, rfl, rfl⟩, fun h => by simpa using h, fun _ => Nat.zero_le 8⟩
  · exact .refl p

theorem Ppu.evaluateSprites_stage : p.Stage p.evaluateSprites := by
  have h8 : ((p.spritesFound.take 8).map p.oamSprite).length ≤ 8 := by simp
  refine ⟨by constructor <;> rfl, ⟨rfl, rfl, rfl⟩, fun _ => ?_, fun _ => h8⟩
  show (((p.spritesFound.take 8).map p.oamSprite) ++ List.replicate _ _).length = 8
  rw [List.length_append, List.length_replicate]
  omega

theorem Ppu.fetchSprites_stage : p.Stage (p.fetchSprites c) :=
  ⟨by constructor <;> rfl, ⟨rfl, rfl, rfl⟩, fun h => by simpa only [Ppu.fetchSprites, length_mapFirst] using h, fun h => h⟩

theorem Ppu.Stage.ite {q r : Ppu} {P : Prop} [Decidable P] (h : p.Stage q) (h' : p.Stage r) :
    p.Stage (if P then q else r) := by split <;> assumption

theorem Ppu.backgroundTick_stage : p.Stage (p.backgroundTick c) := by
  unfold Ppu.backgroundTick
  dsimp only
  refine Ppu.Stage.trans (q := if (2 ≤ p.cycle ∧ p.cycle ≤ 257) ∨ (321 ≤ p.cycle ∧ p.cycle ≤ 337) then
    p.updateShifters.backgroundFetch c ((p.cycle - 1) % 8) else p)
    (.ite _ (p.updateShifters_stage.trans (Ppu.backgroundFetch_stage c _ _)) (.refl _)) ?_
  generalize (if (2 ≤ p.cycle ∧ p.cycle ≤ 257) ∨ (321 ≤ p.cycle ∧ p.cycle ≤ 337) then
    p.updateShifters.backgroundFetch c ((p.cycle - 1) % 8) else p) = q
  refine Ppu.Stage.trans (q := if p.cycle = 256 then q.incrementY else q) (.ite _ q.incrementY_stage (.refl _)) ?_
  generalize (if p.cycle = 256 then q.incrementY else q) = q
  refine Ppu.Stage.trans (q := if p.cycle = 257 then q.loadShifters.transferX else q)
    (.ite _ (q.loadShifters_stage.trans (Ppu.transferX_stage _)) (.refl _)) ?_
  generalize (if p.cycle = 257 then q.loadShifters.transferX else q) = q
  refine Ppu.Stage.trans (q := if p.cycle = 338 ∨ p.cycle = 340 then
    { q with bgNextTileId := ppuRead c q q.nametableAddr } else q)
    (.ite _ (.plain (by constructor <;> rfl) ⟨rfl, rfl, rfl⟩ rfl rfl) (.refl _)) ?_
  exact .ite _ (Ppu.transferY_stage _) (.refl _)

theorem Ppu.spriteTick_stage : p.Stage (p.spriteTick c) := by
  unfold Ppu.spriteTick
  dsimp only
  refine Ppu.Stage.trans (q := if p.cycle = 257 ∧ 0 ≤ p.scanline then p.evaluateSprites else p)
    (.ite _ p.evaluateSprites_stage (.refl _)) ?_
  exact .ite _ (Ppu.fetchSprites_stage c _) (.refl _)

theorem Ppu.fetchTick_stage : p.Stage (p.fetchTick c) := by
  unfold Ppu.fetchTick
  exact .ite _ ((p.preRenderClear_stage.trans (Ppu.backgroundTick_stage c _)).trans (Ppu.spriteTick_stage c _)) (.refl _)

/-! ## The pixel, the position and the whole tick -/

theorem Ppu.composePixel_eq (col row : Nat) : ∃ r0 st v, p.composePixel c col row =
    { p with spr0Rendering := r0, status := st, framebuffer := Store.write p.framebuffer (256 * row + col) v } := by
  exact ⟨_, _, _, rfl⟩

/-- The pixel stage: one framebuffer entry inside the frame, the sprite-0 bits, nothing else (R390 to R394). -/
theorem Ppu.pixelTick_eq : ∃ r0 st fb, p.pixelTick c = { p with spr0Rendering := r0, status := st, framebuffer := fb } ∧
    (fb = p.framebuffer ∨ ∃ i v, i < 61440 ∧ fb = Store.write p.framebuffer i v) := by
  unfold Ppu.pixelTick
  split
  · rename_i h
    obtain ⟨r0, st, v, e⟩ := p.composePixel_eq c (p.cycle - 1) p.scanline.toNat
    exact ⟨r0, st, _, e, .inr ⟨_, v, by omega, rfl⟩⟩
  · exact ⟨_, _, _, rfl, .inl rfl⟩

/-- `Advance` (R371) and the skip (R373) move only the position and the two frame flags. -/
theorem Ppu.advance_eq : ∃ sl cy fc od, p.advance =
    { p with scanline := sl, cycle := cy, frameComplete := fc, oddFrame := od } := by
  unfold Ppu.advance
  repeat' split
  all_goals exact ⟨_, _, _, _, rfl⟩

theorem Ppu.applyOddFrameSkip_eq (cfg : Config) : ∃ cy, p.applyOddFrameSkip cfg = { p with cycle := cy } := by
  unfold Ppu.applyOddFrameSkip
  split <;> exact ⟨_, rfl⟩

/-- What a PPU tick keeps (R370): the CPU-written registers and every memory but the framebuffer. -/
theorem ppuTick_keeps (cfg : Config) :
    let q := (ppuTick cfg c p).ppu
    q.palette = p.palette ∧ q.nametable = p.nametable ∧ q.oam = p.oam ∧ q.patternRam = p.patternRam ∧
      q.ctrl = p.ctrl ∧ q.mask = p.mask ∧ q.t = p.t ∧ q.fineX = p.fineX ∧ q.w = p.w ∧
      q.readBuffer = p.readBuffer ∧ q.oamaddr = p.oamaddr := by
  obtain ⟨cy, e1⟩ := p.applyOddFrameSkip_eq cfg
  have k := (Ppu.fetchTick_stage c (p.applyOddFrameSkip cfg)).kept
  unfold ppuTick
  dsimp only
  generalize hq : (p.applyOddFrameSkip cfg).fetchTick c = q at k
  rw [e1] at k
  generalize (if q.notifies = true then Option.map Cartridge.scanline c else c) = c'
  obtain ⟨r0, st, fb, e2, -⟩ := (if q.atVblank = true then { q with status := setBit q.status 7 true } else q).pixelTick_eq c'
  obtain ⟨sl, cy', fc, od, e3⟩ :=
    ((if q.atVblank = true then { q with status := setBit q.status 7 true } else q).pixelTick c').advance_eq
  rw [e3, e2]
  obtain ⟨k1, k2, k3, k4, k5, k6, k7, k8, k9, k10, k11, -, -⟩ := k
  split <;> exact ⟨k1, k2, k3, k4, k5, k6, k7, k8, k9, k10, k11⟩

/-- A PPU tick keeps the form of the PPU's memories. -/
theorem ppuTick_memoryOk (cfg : Config) (h : p.MemoryOk) : (ppuTick cfg c p).ppu.MemoryOk := by
  obtain ⟨k1, k2, k3, k4, -⟩ := ppuTick_keeps c p cfg
  obtain ⟨h1, h2, h3, h4, h5⟩ := h
  rw [Ppu.MemoryOk, k1, k2, k3, k4]
  refine ⟨h1, h2, h3, h4, ?_⟩
  obtain ⟨cy, e1⟩ := p.applyOddFrameSkip_eq cfg
  have k := (Ppu.fetchTick_stage c (p.applyOddFrameSkip cfg)).place.framebuffer
  unfold ppuTick
  dsimp only
  generalize hq : (p.applyOddFrameSkip cfg).fetchTick c = q at k
  rw [e1] at k
  generalize (if q.notifies = true then Option.map Cartridge.scanline c else c) = c'
  obtain ⟨r0, st, fb, e2, hfb⟩ :=
    (if q.atVblank = true then { q with status := setBit q.status 7 true } else q).pixelTick_eq c'
  obtain ⟨sl, cy', fc, od, e3⟩ :=
    ((if q.atVblank = true then { q with status := setBit q.status 7 true } else q).pixelTick c').advance_eq
  rw [e3, e2]
  have hk : (if q.atVblank = true then { q with status := setBit q.status 7 true } else q).framebuffer = p.framebuffer := by
    split <;> exact k
  rw [hk] at hfb
  show Store.wf fb ∧ Store.within 61440 fb
  rcases hfb with rfl | ⟨i, v, hi, rfl⟩
  · exact h5
  · exact ⟨Store.wf_write h5.1 i v, Store.within_write h5.2 hi v⟩

theorem Ppu.advance_ranges (h : p.RangesOk) : p.advance.RangesOk := by
  obtain ⟨⟨h1, h2, h3⟩, h4, h5⟩ := h
  unfold Ppu.advance
  repeat' split
  all_goals exact ⟨⟨by simp only; omega, by simp only; omega, by simp only; omega⟩, h4, h5⟩

/-- A PPU tick keeps the position and the sprite list in their ranges. -/
theorem ppuTick_rangesOk (cfg : Config) (h : p.RangesOk) : (ppuTick cfg c p).ppu.RangesOk := by
  have h0 : (p.applyOddFrameSkip cfg).RangesOk := by
    unfold Ppu.applyOddFrameSkip
    split
    · exact ⟨⟨h.1.1, h.1.2.1, by simp⟩, h.2⟩
    · exact h
  have k := Ppu.fetchTick_stage c (p.applyOddFrameSkip cfg)
  unfold ppuTick
  dsimp only
  generalize (p.applyOddFrameSkip cfg) = p0 at h0 k
  generalize p0.fetchTick c = q at k
  generalize (if q.notifies = true then Option.map Cartridge.scanline c else c) = c'
  have hq : q.RangesOk := by
    rw [Ppu.RangesOk, k.place.scanline, k.place.cycle]
    exact ⟨h0.1, k.sprites h0.2.1, k.sprCount h0.2.2⟩
  have hq' : (if q.atVblank = true then { q with status := setBit q.status 7 true } else q).RangesOk := by
    split <;> exact hq
  generalize (if q.atVblank = true then { q with status := setBit q.status 7 true } else q) = q' at hq'
  obtain ⟨r0, st, fb, e2, -⟩ := q'.pixelTick_eq c'
  apply Ppu.advance_ranges
  rw [e2]
  exact hq'

/-- What a PPU tick can do to the cartridge: mapper 004's scanline notification (R385). -/
theorem ppuTick_cart (cfg : Config) :
    (ppuTick cfg c p).cart = c ∨ (ppuTick cfg c p).cart = c.map Cartridge.scanline := by
  unfold ppuTick
  dsimp only
  split
  · exact .inr rfl
  · exact .inl rfl

end Sys2Proof.Machine
end

