-- ==== Sys2Proof/Laws/Memory.lean ====
section
/-! SUPPORT. Every memory operation keeps the canonical form and the size of every memory (`State.MemoryOk`). -/

namespace Sys2Proof.Machine

/-! ## The cartridge -/

theorem toNat_and_le (a b : BitVec n) : (a &&& b).toNat ≤ b.toNat := by
  rw [BitVec.toNat_and]
  exact Nat.and_le_right

theorem bank_offset_lt {b n k o : Nat} (hn : 0 < n) (ho : o < k) : b % n * k + o < n * k := by
  have h : b % n < n := Nat.mod_lt b hn
  calc b % n * k + o < b % n * k + k := by omega
    _ = (b % n + 1) * k := by rw [Nat.succ_mul]
    _ ≤ n * k := Nat.mul_le_mul_right k h

/-- A CHR address below $2000 falls into the array of a cartridge with CHR RAM (R500, R501). -/
theorem Cartridge.chrOffset_lt (c : Cartridge) {a : PpuAddr} (ha : a ≤ 0x1FFF) (h : c.chrIsRam = true) :
    c.chrOffset a < c.chrSize := by
  have hs : c.chrSize = 8192 := by simp [Cartridge.chrSize, h]
  have hb : c.chrBanks = 1 := by simp [Cartridge.chrBanks, h]
  have ha' : a.toNat < 8192 := by
    rw [BitVec.le_def, show (0x1FFF : PpuAddr).toNat = 8191 from rfl] at ha
    omega
  have h12 : (a &&& 0x0FFF).toNat < 4096 := Nat.lt_of_le_of_lt (toNat_and_le a 0x0FFF) (by decide)
  have h10 : (a &&& 0x03FF).toNat < 1024 := Nat.lt_of_le_of_lt (toNat_and_le a 0x03FF) (by decide)
  unfold Cartridge.chrOffset
  rw [hs]
  split
  · exact ha'
  · exact ha'
  · rw [hb]; exact bank_offset_lt (n := 2) (by decide) h12
  · rw [hb, Nat.mod_one]; omega
  · rw [hb]; exact bank_offset_lt (n := 8) (by decide) h10

theorem Cartridge.ppuWrite_memoryOk {c : Cartridge} (h : c.MemoryOk) {a : PpuAddr} (ha : a ≤ 0x1FFF) (d : Byte) :
    (c.ppuWrite a d).MemoryOk := by
  unfold Cartridge.ppuWrite
  split
  · rename_i hr
    exact ⟨h.1, h.2.1, Store.wf_write h.2.2.1 _ _, Store.within_write h.2.2.2 (c.chrOffset_lt ha hr) d⟩
  · exact h

theorem Cartridge.cpuWrite_memoryOk {c : Cartridge} (h : c.MemoryOk) {a : Word} (ha : 0x6000 ≤ a) (d : Byte) :
    (c.cpuWrite a d).MemoryOk := by
  unfold Cartridge.cpuWrite
  split
  · rename_i h8
    have hi : (a - 0x6000).toNat < 8192 := by
      rw [BitVec.lt_def, show (0x8000 : Word).toNat = 32768 from rfl] at h8
      rw [BitVec.le_def, show (0x6000 : Word).toNat = 24576 from rfl] at ha
      rw [BitVec.toNat_sub, show (0x6000 : Word).toNat = 24576 from rfl]
      omega
    exact ⟨⟨Store.wf_write h.1.1 _ _, Store.within_write h.1.2 hi d⟩, h.2⟩
  · exact h

theorem Cartridge.scanline_memoryOk {c : Cartridge} (h : c.MemoryOk) : c.scanline.MemoryOk := by
  unfold Cartridge.scanline
  split <;> exact h

/-! ## The PPU -/

theorem ntOffset_lt (m : Mirroring) (a : PpuAddr) : ntOffset m a < 2048 := by
  have h10 : (a &&& 0x03FF).toNat < 1024 := Nat.lt_of_le_of_lt (toNat_and_le a 0x03FF) (by decide)
  have := Bool.toNat_le (ntIndex m a)
  unfold ntOffset
  omega

theorem palIndex_lt (a : PpuAddr) : palIndex a < 32 := by
  have h5 : (a &&& 0x1F).toNat < 32 := Nat.lt_of_le_of_lt (toNat_and_le a 0x1F) (by decide)
  unfold palIndex
  dsimp only
  split <;> omega

/-- A PPU-bus write keeps the PPU's memories and the cartridge's. -/
theorem ppuWrite_memoryOk {c : Option Cartridge} {p : Ppu} (hc : ∀ k ∈ c, k.MemoryOk) (hp : p.MemoryOk) (a : PpuAddr)
    (d : Byte) : (∀ k ∈ (ppuWrite c p a d).1, k.MemoryOk) ∧ (ppuWrite c p a d).2.MemoryOk := by
  obtain ⟨h1, h2, h3, h4, h5⟩ := hp
  unfold ppuWrite
  split
  · rename_i ha
    split
    · rename_i k
      refine ⟨?_, h1, h2, h3, h4, h5⟩
      rintro _ ⟨⟩
      exact Cartridge.ppuWrite_memoryOk (hc k rfl) ha d
    · have ha' : a.toNat < 8192 := by
        rw [BitVec.le_def, show (0x1FFF : PpuAddr).toNat = 8191 from rfl] at ha
        omega
      exact ⟨hc, h1, h2, h3, ⟨Store.wf_write h4.1 _ _, Store.within_write h4.2 ha' d⟩, h5⟩
  · split
    · exact ⟨hc, h1, ⟨Store.wf_write h2.1 _ _, Store.within_write h2.2 (ntOffset_lt _ a) d⟩, h3, h4, h5⟩
    · exact ⟨hc, ⟨Store.wf_write h1.1 _ _, Store.within_write h1.2 (palIndex_lt a) d⟩, h2, h3, h4, h5⟩

theorem oam_write_ok {m : Memory} (h : Store.wf m ∧ Store.within 256 m) (i d : Byte) :
    Store.wf (Store.write m i.toNat d) ∧ Store.within 256 (Store.write m i.toNat d) :=
  ⟨Store.wf_write h.1 _ _, Store.within_write h.2 i.isLt d⟩

theorem writeReg_memoryOk (cfg : Config) {c : Option Cartridge} {p : Ppu} (hc : ∀ k ∈ c, k.MemoryOk) (hp : p.MemoryOk)
    (reg : BitVec 3) (d : Byte) :
    (∀ k ∈ (p.writeReg cfg c reg d).cart, k.MemoryOk) ∧ (p.writeReg cfg c reg d).ppu.MemoryOk := by
  have h7 := ppuWrite_memoryOk hc hp (p.v.setWidth 14) d
  obtain ⟨h1, h2, h3, h4, h5⟩ := hp
  rcases bv3_cases reg with rfl | rfl | rfl | rfl | rfl | rfl | rfl | rfl
  · exact ⟨hc, h1, h2, h3, h4, h5⟩
  · exact ⟨hc, h1, h2, h3, h4, h5⟩
  · exact ⟨hc, h1, h2, h3, h4, h5⟩
  · exact ⟨hc, h1, h2, h3, h4, h5⟩
  · exact ⟨hc, h1, h2, oam_write_ok h3 _ _, h4, h5⟩
  · have e : p.writeReg cfg c 5 d = ⟨p.writeScroll d, c, false⟩ := rfl
    rw [e]
    refine ⟨hc, ?_⟩
    unfold Ppu.writeScroll
    split <;> exact ⟨h1, h2, h3, h4, h5⟩
  · have e : p.writeReg cfg c 6 d = ⟨p.writeAddr d, c, false⟩ := rfl
    rw [e]
    refine ⟨hc, ?_⟩
    unfold Ppu.writeAddr
    split <;> exact ⟨h1, h2, h3, h4, h5⟩
  · exact h7

theorem readReg_memoryOk {c : Option Cartridge} {p : Ppu} (hp : p.MemoryOk) (reg : BitVec 3) :
    (p.readReg c reg).2.MemoryOk := by
  obtain ⟨h1, h2, h3, h4, h5⟩ := hp
  unfold Ppu.readReg
  repeat' split
  all_goals exact ⟨h1, h2, h3, h4, h5⟩

theorem oamDmaWrite_memoryOk {p : Ppu} (hp : p.MemoryOk) (target : DmaOamTarget) (i d : Byte) :
    (p.oamDmaWrite target i d).MemoryOk := by
  obtain ⟨h1, h2, h3, h4, h5⟩ := hp
  unfold Ppu.oamDmaWrite
  split
  · exact ⟨h1, h2, oam_write_ok h3 _ d, h4, h5⟩
  · exact ⟨h1, h2, oam_write_ok h3 _ d, h4, h5⟩

/-! ## The bus -/

/-- A bus read keeps every memory's form. -/
theorem busRead_memoryOk {s : State} (h : s.MemoryOk) (a : Word) : (busRead a s).2.MemoryOk := by
  refine ⟨?_, ?_, ?_⟩
  · rw [busRead_ram']; exact h.1
  · unfold busRead
    split
    · exact h.2.1
    · unfold deviceRead
      repeat' split
      all_goals first
        | exact h.2.1
        | (rename_i he
           have := readReg_memoryOk (c := s.cart) h.2.1 (field a 0 3)
           rw [he] at this
           exact this)
  · rw [busRead_cart]; exact h.2.2

/-- A bus write keeps every memory's form. -/
theorem busWrite_memoryOk {s : State} (h : s.MemoryOk) (a : Word) (v : Byte) : (busWrite a v s).MemoryOk := by
  have hd : (deviceWrite a v s).MemoryOk := by
    unfold deviceWrite
    split
    · exact ⟨⟨Store.wf_write h.1.1 _ _, Store.within_write h.1.2 (ramIndex_lt a) v⟩, h.2⟩
    · split
      · have := writeReg_memoryOk s.cfg h.2.2 h.2.1 (field a 0 3) v
        exact ⟨h.1, this.2, this.1⟩
      · repeat' split
        all_goals exact h
  unfold busWrite
  split
  · rename_i c hc
    split
    · rename_i ha
      refine ⟨h.1, h.2.1, ?_⟩
      rintro _ ⟨⟩
      exact Cartridge.cpuWrite_memoryOk (h.2.2 c hc) ha v
    · exact hd
  · exact hd

/-! ## The ticks -/

theorem dmaStep_memoryOk {s : State} (h : s.MemoryOk) : (dmaStep s).MemoryOk := by
  unfold dmaStep
  repeat' split
  · exact h
  · exact h
  · exact busRead_memoryOk h _
  · exact ⟨h.1, oamDmaWrite_memoryOk h.2.1 _ _ _, h.2.2⟩

theorem dmcFetchStep_memoryOk {s : State} (h : s.MemoryOk) : (dmcFetchStep s).MemoryOk := by
  have h' : State.MemoryOk { s with cpu := { s.cpu with dmcStall := s.cpu.nextStall } } := h
  unfold dmcFetchStep
  dsimp only
  split
  · exact busRead_memoryOk h' _
  · exact h'

theorem ppuClock_memoryOk {s : State} (h : s.MemoryOk) : (ppuClock s).MemoryOk := by
  refine ⟨h.1, ppuTick_memoryOk s.cart s.ppu s.cfg h.2.1, ?_⟩
  intro k hk
  rcases ppuTick_cart s.cart s.ppu s.cfg with e | e
  · exact h.2.2 k (e ▸ hk)
  · have hk' : k ∈ s.cart.map Cartridge.scanline := e ▸ hk
    obtain ⟨c, hc, rfl⟩ := Option.mem_map.1 hk'
    exact Cartridge.scanline_memoryOk (h.2.2 c hc)

end Sys2Proof.Machine
end

