-- ==== Sys2Proof/Laws/PerInstr.lean ====
section
/-! SUPPORT. The statement made for every instruction, one lemma per constructor: the opcode matrix read at the
instruction's opcode byte selects the row that makes the instruction from its operand bytes. -/

namespace Sys2Proof.Laws.RowSelected

/-- The row of the opcode matrix (R118) at an instruction's opcode makes that instruction, and the encoding is the opcode
and the row's operand bytes (R100). -/
def Statement (i : Instr) : Prop :=
  match opcodeRow i.opcode with
  | .implied j => i = j ∧ encode i = [i.opcode]
  | .padded j => i = j ∧ encode i = [i.opcode, 0]
  | .byte f => ∃ b, i = f b ∧ encode i = [i.opcode, b]
  | .word f => ∃ w, i = f w ∧ encode i = [i.opcode, lo8 w, hi8 w]

theorem brk : Statement .brk := ⟨rfl, rfl⟩
theorem oraIzx (z : Byte) : Statement (.oraIzx z) := ⟨z, rfl, rfl⟩
theorem jam02 : Statement .jam02 := ⟨rfl, rfl⟩
theorem sloIzx (z : Byte) : Statement (.sloIzx z) := ⟨z, rfl, rfl⟩
theorem unop04 (z : Byte) : Statement (.unop04 z) := ⟨z, rfl, rfl⟩
theorem oraZp0 (z : Byte) : Statement (.oraZp0 z) := ⟨z, rfl, rfl⟩
theorem aslZp0 (z : Byte) : Statement (.aslZp0 z) := ⟨z, rfl, rfl⟩
theorem sloZp0 (z : Byte) : Statement (.sloZp0 z) := ⟨z, rfl, rfl⟩
theorem php : Statement .php := ⟨rfl, rfl⟩
theorem oraImm (imm : Byte) : Statement (.oraImm imm) := ⟨imm, rfl, rfl⟩
theorem aslImp : Statement .aslImp := ⟨rfl, rfl⟩
theorem anc0B (imm : Byte) : Statement (.anc0B imm) := ⟨imm, rfl, rfl⟩
theorem unop0C (addr : Word) : Statement (.unop0C addr) := ⟨addr, rfl, rfl⟩
theorem oraAbs (addr : Word) : Statement (.oraAbs addr) := ⟨addr, rfl, rfl⟩
theorem aslAbs (addr : Word) : Statement (.aslAbs addr) := ⟨addr, rfl, rfl⟩
theorem sloAbs (addr : Word) : Statement (.sloAbs addr) := ⟨addr, rfl, rfl⟩
theorem bpl (off : Byte) : Statement (.bpl off) := ⟨off, rfl, rfl⟩
theorem oraIzy (z : Byte) : Statement (.oraIzy z) := ⟨z, rfl, rfl⟩
theorem jam12 : Statement .jam12 := ⟨rfl, rfl⟩
theorem sloIzy (z : Byte) : Statement (.sloIzy z) := ⟨z, rfl, rfl⟩
theorem unop14 (z : Byte) : Statement (.unop14 z) := ⟨z, rfl, rfl⟩
theorem oraZpx (z : Byte) : Statement (.oraZpx z) := ⟨z, rfl, rfl⟩
theorem aslZpx (z : Byte) : Statement (.aslZpx z) := ⟨z, rfl, rfl⟩
theorem sloZpx (z : Byte) : Statement (.sloZpx z) := ⟨z, rfl, rfl⟩
theorem clc : Statement .clc := ⟨rfl, rfl⟩
theorem oraAby (base : Word) : Statement (.oraAby base) := ⟨base, rfl, rfl⟩
theorem unop1A : Statement .unop1A := ⟨rfl, rfl⟩
theorem sloAby (base : Word) : Statement (.sloAby base) := ⟨base, rfl, rfl⟩
theorem unop1C (base : Word) : Statement (.unop1C base) := ⟨base, rfl, rfl⟩
theorem oraAbx (base : Word) : Statement (.oraAbx base) := ⟨base, rfl, rfl⟩
theorem aslAbx (base : Word) : Statement (.aslAbx base) := ⟨base, rfl, rfl⟩
theorem sloAbx (base : Word) : Statement (.sloAbx base) := ⟨base, rfl, rfl⟩
theorem jsr (addr : Word) : Statement (.jsr addr) := ⟨addr, rfl, rfl⟩
theorem andIzx (z : Byte) : Statement (.andIzx z) := ⟨z, rfl, rfl⟩
theorem jam22 : Statement .jam22 := ⟨rfl, rfl⟩
theorem rlaIzx (z : Byte) : Statement (.rlaIzx z) := ⟨z, rfl, rfl⟩
theorem bitZp0 (z : Byte) : Statement (.bitZp0 z) := ⟨z, rfl, rfl⟩
theorem andZp0 (z : Byte) : Statement (.andZp0 z) := ⟨z, rfl, rfl⟩
theorem rolZp0 (z : Byte) : Statement (.rolZp0 z) := ⟨z, rfl, rfl⟩
theorem rlaZp0 (z : Byte) : Statement (.rlaZp0 z) := ⟨z, rfl, rfl⟩
theorem plp : Statement .plp := ⟨rfl, rfl⟩
theorem andImm (imm : Byte) : Statement (.andImm imm) := ⟨imm, rfl, rfl⟩
theorem rolImp : Statement .rolImp := ⟨rfl, rfl⟩
theorem anc2B (imm : Byte) : Statement (.anc2B imm) := ⟨imm, rfl, rfl⟩
theorem bitAbs (addr : Word) : Statement (.bitAbs addr) := ⟨addr, rfl, rfl⟩
theorem andAbs (addr : Word) : Statement (.andAbs addr) := ⟨addr, rfl, rfl⟩
theorem rolAbs (addr : Word) : Statement (.rolAbs addr) := ⟨addr, rfl, rfl⟩
theorem rlaAbs (addr : Word) : Statement (.rlaAbs addr) := ⟨addr, rfl, rfl⟩
theorem bmi (off : Byte) : Statement (.bmi off) := ⟨off, rfl, rfl⟩
theorem andIzy (z : Byte) : Statement (.andIzy z) := ⟨z, rfl, rfl⟩
theorem jam32 : Statement .jam32 := ⟨rfl, rfl⟩
theorem rlaIzy (z : Byte) : Statement (.rlaIzy z) := ⟨z, rfl, rfl⟩
theorem unop34 (z : Byte) : Statement (.unop34 z) := ⟨z, rfl, rfl⟩
theorem andZpx (z : Byte) : Statement (.andZpx z) := ⟨z, rfl, rfl⟩
theorem rolZpx (z : Byte) : Statement (.rolZpx z) := ⟨z, rfl, rfl⟩
theorem rlaZpx (z : Byte) : Statement (.rlaZpx z) := ⟨z, rfl, rfl⟩
theorem sec : Statement .sec := ⟨rfl, rfl⟩
theorem andAby (base : Word) : Statement (.andAby base) := ⟨base, rfl, rfl⟩
theorem unop3A : Statement .unop3A := ⟨rfl, rfl⟩
theorem rlaAby (base : Word) : Statement (.rlaAby base) := ⟨base, rfl, rfl⟩
theorem unop3C (base : Word) : Statement (.unop3C base) := ⟨base, rfl, rfl⟩
theorem andAbx (base : Word) : Statement (.andAbx base) := ⟨base, rfl, rfl⟩
theorem rolAbx (base : Word) : Statement (.rolAbx base) := ⟨base, rfl, rfl⟩
theorem rlaAbx (base : Word) : Statement (.rlaAbx base) := ⟨base, rfl, rfl⟩
theorem rti : Statement .rti := ⟨rfl, rfl⟩
theorem eorIzx (z : Byte) : Statement (.eorIzx z) := ⟨z, rfl, rfl⟩
theorem jam42 : Statement .jam42 := ⟨rfl, rfl⟩
theorem sreIzx (z : Byte) : Statement (.sreIzx z) := ⟨z, rfl, rfl⟩
theorem unop44 (z : Byte) : Statement (.unop44 z) := ⟨z, rfl, rfl⟩
theorem eorZp0 (z : Byte) : Statement (.eorZp0 z) := ⟨z, rfl, rfl⟩
theorem lsrZp0 (z : Byte) : Statement (.lsrZp0 z) := ⟨z, rfl, rfl⟩
theorem sreZp0 (z : Byte) : Statement (.sreZp0 z) := ⟨z, rfl, rfl⟩
theorem pha : Statement .pha := ⟨rfl, rfl⟩
theorem eorImm (imm : Byte) : Statement (.eorImm imm) := ⟨imm, rfl, rfl⟩
theorem lsrImp : Statement .lsrImp := ⟨rfl, rfl⟩
theorem alr (imm : Byte) : Statement (.alr imm) := ⟨imm, rfl, rfl⟩
theorem jmpAbs (addr : Word) : Statement (.jmpAbs addr) := ⟨addr, rfl, rfl⟩
theorem eorAbs (addr : Word) : Statement (.eorAbs addr) := ⟨addr, rfl, rfl⟩
theorem lsrAbs (addr : Word) : Statement (.lsrAbs addr) := ⟨addr, rfl, rfl⟩
theorem sreAbs (addr : Word) : Statement (.sreAbs addr) := ⟨addr, rfl, rfl⟩
theorem bvc (off : Byte) : Statement (.bvc off) := ⟨off, rfl, rfl⟩
theorem eorIzy (z : Byte) : Statement (.eorIzy z) := ⟨z, rfl, rfl⟩
theorem jam52 : Statement .jam52 := ⟨rfl, rfl⟩
theorem sreIzy (z : Byte) : Statement (.sreIzy z) := ⟨z, rfl, rfl⟩
theorem unop54 (z : Byte) : Statement (.unop54 z) := ⟨z, rfl, rfl⟩
theorem eorZpx (z : Byte) : Statement (.eorZpx z) := ⟨z, rfl, rfl⟩
theorem lsrZpx (z : Byte) : Statement (.lsrZpx z) := ⟨z, rfl, rfl⟩
theorem sreZpx (z : Byte) : Statement (.sreZpx z) := ⟨z, rfl, rfl⟩
theorem cli : Statement .cli := ⟨rfl, rfl⟩
theorem eorAby (base : Word) : Statement (.eorAby base) := ⟨base, rfl, rfl⟩
theorem unop5A : Statement .unop5A := ⟨rfl, rfl⟩
theorem sreAby (base : Word) : Statement (.sreAby base) := ⟨base, rfl, rfl⟩
theorem unop5C (base : Word) : Statement (.unop5C base) := ⟨base, rfl, rfl⟩
theorem eorAbx (base : Word) : Statement (.eorAbx base) := ⟨base, rfl, rfl⟩
theorem lsrAbx (base : Word) : Statement (.lsrAbx base) := ⟨base, rfl, rfl⟩
theorem sreAbx (base : Word) : Statement (.sreAbx base) := ⟨base, rfl, rfl⟩
theorem rts : Statement .rts := ⟨rfl, rfl⟩
theorem adcIzx (z : Byte) : Statement (.adcIzx z) := ⟨z, rfl, rfl⟩
theorem jam62 : Statement .jam62 := ⟨rfl, rfl⟩
theorem rraIzx (z : Byte) : Statement (.rraIzx z) := ⟨z, rfl, rfl⟩
theorem unop64 (z : Byte) : Statement (.unop64 z) := ⟨z, rfl, rfl⟩
theorem adcZp0 (z : Byte) : Statement (.adcZp0 z) := ⟨z, rfl, rfl⟩
theorem rorZp0 (z : Byte) : Statement (.rorZp0 z) := ⟨z, rfl, rfl⟩
theorem rraZp0 (z : Byte) : Statement (.rraZp0 z) := ⟨z, rfl, rfl⟩
theorem pla : Statement .pla := ⟨rfl, rfl⟩
theorem adcImm (imm : Byte) : Statement (.adcImm imm) := ⟨imm, rfl, rfl⟩
theorem rorImp : Statement .rorImp := ⟨rfl, rfl⟩
theorem arr (imm : Byte) : Statement (.arr imm) := ⟨imm, rfl, rfl⟩
theorem jmpInd (ptr : Word) : Statement (.jmpInd ptr) := ⟨ptr, rfl, rfl⟩
theorem adcAbs (addr : Word) : Statement (.adcAbs addr) := ⟨addr, rfl, rfl⟩
theorem rorAbs (addr : Word) : Statement (.rorAbs addr) := ⟨addr, rfl, rfl⟩
theorem rraAbs (addr : Word) : Statement (.rraAbs addr) := ⟨addr, rfl, rfl⟩
theorem bvs (off : Byte) : Statement (.bvs off) := ⟨off, rfl, rfl⟩
theorem adcIzy (z : Byte) : Statement (.adcIzy z) := ⟨z, rfl, rfl⟩
theorem jam72 : Statement .jam72 := ⟨rfl, rfl⟩
theorem rraIzy (z : Byte) : Statement (.rraIzy z) := ⟨z, rfl, rfl⟩
theorem unop74 (z : Byte) : Statement (.unop74 z) := ⟨z, rfl, rfl⟩
theorem adcZpx (z : Byte) : Statement (.adcZpx z) := ⟨z, rfl, rfl⟩
theorem rorZpx (z : Byte) : Statement (.rorZpx z) := ⟨z, rfl, rfl⟩
theorem rraZpx (z : Byte) : Statement (.rraZpx z) := ⟨z, rfl, rfl⟩
theorem sei : Statement .sei := ⟨rfl, rfl⟩
theorem adcAby (base : Word) : Statement (.adcAby base) := ⟨base, rfl, rfl⟩
theorem unop7A : Statement .unop7A := ⟨rfl, rfl⟩
theorem rraAby (base : Word) : Statement (.rraAby base) := ⟨base, rfl, rfl⟩
theorem unop7C (base : Word) : Statement (.unop7C base) := ⟨base, rfl, rfl⟩
theorem adcAbx (base : Word) : Statement (.adcAbx base) := ⟨base, rfl, rfl⟩
theorem rorAbx (base : Word) : Statement (.rorAbx base) := ⟨base, rfl, rfl⟩
theorem rraAbx (base : Word) : Statement (.rraAbx base) := ⟨base, rfl, rfl⟩
theorem unop80 (imm : Byte) : Statement (.unop80 imm) := ⟨imm, rfl, rfl⟩
theorem staIzx (z : Byte) : Statement (.staIzx z) := ⟨z, rfl, rfl⟩
theorem unop82 (imm : Byte) : Statement (.unop82 imm) := ⟨imm, rfl, rfl⟩
theorem saxIzx (z : Byte) : Statement (.saxIzx z) := ⟨z, rfl, rfl⟩
theorem styZp0 (z : Byte) : Statement (.styZp0 z) := ⟨z, rfl, rfl⟩
theorem staZp0 (z : Byte) : Statement (.staZp0 z) := ⟨z, rfl, rfl⟩
theorem stxZp0 (z : Byte) : Statement (.stxZp0 z) := ⟨z, rfl, rfl⟩
theorem saxZp0 (z : Byte) : Statement (.saxZp0 z) := ⟨z, rfl, rfl⟩
theorem dey : Statement .dey := ⟨rfl, rfl⟩
theorem unop89 (imm : Byte) : Statement (.unop89 imm) := ⟨imm, rfl, rfl⟩
theorem txa : Statement .txa := ⟨rfl, rfl⟩
theorem ane (imm : Byte) : Statement (.ane imm) := ⟨imm, rfl, rfl⟩
theorem styAbs (addr : Word) : Statement (.styAbs addr) := ⟨addr, rfl, rfl⟩
theorem staAbs (addr : Word) : Statement (.staAbs addr) := ⟨addr, rfl, rfl⟩
theorem stxAbs (addr : Word) : Statement (.stxAbs addr) := ⟨addr, rfl, rfl⟩
theorem saxAbs (addr : Word) : Statement (.saxAbs addr) := ⟨addr, rfl, rfl⟩
theorem bcc (off : Byte) : Statement (.bcc off) := ⟨off, rfl, rfl⟩
theorem staIzy (z : Byte) : Statement (.staIzy z) := ⟨z, rfl, rfl⟩
theorem jam92 : Statement .jam92 := ⟨rfl, rfl⟩
theorem shaIzy (z : Byte) : Statement (.shaIzy z) := ⟨z, rfl, rfl⟩
theorem styZpx (z : Byte) : Statement (.styZpx z) := ⟨z, rfl, rfl⟩
theorem staZpx (z : Byte) : Statement (.staZpx z) := ⟨z, rfl, rfl⟩
theorem stxZpy (z : Byte) : Statement (.stxZpy z) := ⟨z, rfl, rfl⟩
theorem saxZpy (z : Byte) : Statement (.saxZpy z) := ⟨z, rfl, rfl⟩
theorem tya : Statement .tya := ⟨rfl, rfl⟩
theorem staAby (base : Word) : Statement (.staAby base) := ⟨base, rfl, rfl⟩
theorem txs : Statement .txs := ⟨rfl, rfl⟩
theorem tas (base : Word) : Statement (.tas base) := ⟨base, rfl, rfl⟩
theorem shy (base : Word) : Statement (.shy base) := ⟨base, rfl, rfl⟩
theorem staAbx (base : Word) : Statement (.staAbx base) := ⟨base, rfl, rfl⟩
theorem shx (base : Word) : Statement (.shx base) := ⟨base, rfl, rfl⟩
theorem shaAby (base : Word) : Statement (.shaAby base) := ⟨base, rfl, rfl⟩
theorem ldyImm (imm : Byte) : Statement (.ldyImm imm) := ⟨imm, rfl, rfl⟩
theorem ldaIzx (z : Byte) : Statement (.ldaIzx z) := ⟨z, rfl, rfl⟩
theorem ldxImm (imm : Byte) : Statement (.ldxImm imm) := ⟨imm, rfl, rfl⟩
theorem laxIzx (z : Byte) : Statement (.laxIzx z) := ⟨z, rfl, rfl⟩
theorem ldyZp0 (z : Byte) : Statement (.ldyZp0 z) := ⟨z, rfl, rfl⟩
theorem ldaZp0 (z : Byte) : Statement (.ldaZp0 z) := ⟨z, rfl, rfl⟩
theorem ldxZp0 (z : Byte) : Statement (.ldxZp0 z) := ⟨z, rfl, rfl⟩
theorem laxZp0 (z : Byte) : Statement (.laxZp0 z) := ⟨z, rfl, rfl⟩
theorem tay : Statement .tay := ⟨rfl, rfl⟩
theorem ldaImm (imm : Byte) : Statement (.ldaImm imm) := ⟨imm, rfl, rfl⟩
theorem tax : Statement .tax := ⟨rfl, rfl⟩
theorem lxa (imm : Byte) : Statement (.lxa imm) := ⟨imm, rfl, rfl⟩
theorem ldyAbs (addr : Word) : Statement (.ldyAbs addr) := ⟨addr, rfl, rfl⟩
theorem ldaAbs (addr : Word) : Statement (.ldaAbs addr) := ⟨addr, rfl, rfl⟩
theorem ldxAbs (addr : Word) : Statement (.ldxAbs addr) := ⟨addr, rfl, rfl⟩
theorem laxAbs (addr : Word) : Statement (.laxAbs addr) := ⟨addr, rfl, rfl⟩
theorem bcs (off : Byte) : Statement (.bcs off) := ⟨off, rfl, rfl⟩
theorem ldaIzy (z : Byte) : Statement (.ldaIzy z) := ⟨z, rfl, rfl⟩
theorem jamB2 : Statement .jamB2 := ⟨rfl, rfl⟩
theorem laxIzy (z : Byte) : Statement (.laxIzy z) := ⟨z, rfl, rfl⟩
theorem ldyZpx (z : Byte) : Statement (.ldyZpx z) := ⟨z, rfl, rfl⟩
theorem ldaZpx (z : Byte) : Statement (.ldaZpx z) := ⟨z, rfl, rfl⟩
theorem ldxZpy (z : Byte) : Statement (.ldxZpy z) := ⟨z, rfl, rfl⟩
theorem laxZpy (z : Byte) : Statement (.laxZpy z) := ⟨z, rfl, rfl⟩
theorem clv : Statement .clv := ⟨rfl, rfl⟩
theorem ldaAby (base : Word) : Statement (.ldaAby base) := ⟨base, rfl, rfl⟩
theorem tsx : Statement .tsx := ⟨rfl, rfl⟩
theorem las (base : Word) : Statement (.las base) := ⟨base, rfl, rfl⟩
theorem ldyAbx (base : Word) : Statement (.ldyAbx base) := ⟨base, rfl, rfl⟩
theorem ldaAbx (base : Word) : Statement (.ldaAbx base) := ⟨base, rfl, rfl⟩
theorem ldxAby (base : Word) : Statement (.ldxAby base) := ⟨base, rfl, rfl⟩
theorem laxAby (base : Word) : Statement (.laxAby base) := ⟨base, rfl, rfl⟩
theorem cpyImm (imm : Byte) : Statement (.cpyImm imm) := ⟨imm, rfl, rfl⟩
theorem cmpIzx (z : Byte) : Statement (.cmpIzx z) := ⟨z, rfl, rfl⟩
theorem unopC2 (imm : Byte) : Statement (.unopC2 imm) := ⟨imm, rfl, rfl⟩
theorem dcpIzx (z : Byte) : Statement (.dcpIzx z) := ⟨z, rfl, rfl⟩
theorem cpyZp0 (z : Byte) : Statement (.cpyZp0 z) := ⟨z, rfl, rfl⟩
theorem cmpZp0 (z : Byte) : Statement (.cmpZp0 z) := ⟨z, rfl, rfl⟩
theorem decZp0 (z : Byte) : Statement (.decZp0 z) := ⟨z, rfl, rfl⟩
theorem dcpZp0 (z : Byte) : Statement (.dcpZp0 z) := ⟨z, rfl, rfl⟩
theorem iny : Statement .iny := ⟨rfl, rfl⟩
theorem cmpImm (imm : Byte) : Statement (.cmpImm imm) := ⟨imm, rfl, rfl⟩
theorem dex : Statement .dex := ⟨rfl, rfl⟩
theorem sbx (imm : Byte) : Statement (.sbx imm) := ⟨imm, rfl, rfl⟩
theorem cpyAbs (addr : Word) : Statement (.cpyAbs addr) := ⟨addr, rfl, rfl⟩
theorem cmpAbs (addr : Word) : Statement (.cmpAbs addr) := ⟨addr, rfl, rfl⟩
theorem decAbs (addr : Word) : Statement (.decAbs addr) := ⟨addr, rfl, rfl⟩
theorem dcpAbs (addr : Word) : Statement (.dcpAbs addr) := ⟨addr, rfl, rfl⟩
theorem bne (off : Byte) : Statement (.bne off) := ⟨off, rfl, rfl⟩
theorem cmpIzy (z : Byte) : Statement (.cmpIzy z) := ⟨z, rfl, rfl⟩
theorem jamD2 : Statement .jamD2 := ⟨rfl, rfl⟩
theorem dcpIzy (z : Byte) : Statement (.dcpIzy z) := ⟨z, rfl, rfl⟩
theorem unopD4 (z : Byte) : Statement (.unopD4 z) := ⟨z, rfl, rfl⟩
theorem cmpZpx (z : Byte) : Statement (.cmpZpx z) := ⟨z, rfl, rfl⟩
theorem decZpx (z : Byte) : Statement (.decZpx z) := ⟨z, rfl, rfl⟩
theorem dcpZpx (z : Byte) : Statement (.dcpZpx z) := ⟨z, rfl, rfl⟩
theorem cld : Statement .cld := ⟨rfl, rfl⟩
theorem cmpAby (base : Word) : Statement (.cmpAby base) := ⟨base, rfl, rfl⟩
theorem unopDA : Statement .unopDA := ⟨rfl, rfl⟩
theorem dcpAby (base : Word) : Statement (.dcpAby base) := ⟨base, rfl, rfl⟩
theorem unopDC (base : Word) : Statement (.unopDC base) := ⟨base, rfl, rfl⟩
theorem cmpAbx (base : Word) : Statement (.cmpAbx base) := ⟨base, rfl, rfl⟩
theorem decAbx (base : Word) : Statement (.decAbx base) := ⟨base, rfl, rfl⟩
theorem dcpAbx (base : Word) : Statement (.dcpAbx base) := ⟨base, rfl, rfl⟩
theorem cpxImm (imm : Byte) : Statement (.cpxImm imm) := ⟨imm, rfl, rfl⟩
theorem sbcIzx (z : Byte) : Statement (.sbcIzx z) := ⟨z, rfl, rfl⟩
theorem unopE2 (imm : Byte) : Statement (.unopE2 imm) := ⟨imm, rfl, rfl⟩
theorem iscIzx (z : Byte) : Statement (.iscIzx z) := ⟨z, rfl, rfl⟩
theorem cpxZp0 (z : Byte) : Statement (.cpxZp0 z) := ⟨z, rfl, rfl⟩
theorem sbcZp0 (z : Byte) : Statement (.sbcZp0 z) := ⟨z, rfl, rfl⟩
theorem incZp0 (z : Byte) : Statement (.incZp0 z) := ⟨z, rfl, rfl⟩
theorem iscZp0 (z : Byte) : Statement (.iscZp0 z) := ⟨z, rfl, rfl⟩
theorem inx : Statement .inx := ⟨rfl, rfl⟩
theorem sbcImm (imm : Byte) : Statement (.sbcImm imm) := ⟨imm, rfl, rfl⟩
theorem nop : Statement .nop := ⟨rfl, rfl⟩
theorem usbc (imm : Byte) : Statement (.usbc imm) := ⟨imm, rfl, rfl⟩
theorem cpxAbs (addr : Word) : Statement (.cpxAbs addr) := ⟨addr, rfl, rfl⟩
theorem sbcAbs (addr : Word) : Statement (.sbcAbs addr) := ⟨addr, rfl, rfl⟩
theorem incAbs (addr : Word) : Statement (.incAbs addr) := ⟨addr, rfl, rfl⟩
theorem iscAbs (addr : Word) : Statement (.iscAbs addr) := ⟨addr, rfl, rfl⟩
theorem beq (off : Byte) : Statement (.beq off) := ⟨off, rfl, rfl⟩
theorem sbcIzy (z : Byte) : Statement (.sbcIzy z) := ⟨z, rfl, rfl⟩
theorem jamF2 : Statement .jamF2 := ⟨rfl, rfl⟩
theorem iscIzy (z : Byte) : Statement (.iscIzy z) := ⟨z, rfl, rfl⟩
theorem unopF4 (z : Byte) : Statement (.unopF4 z) := ⟨z, rfl, rfl⟩
theorem sbcZpx (z : Byte) : Statement (.sbcZpx z) := ⟨z, rfl, rfl⟩
theorem incZpx (z : Byte) : Statement (.incZpx z) := ⟨z, rfl, rfl⟩
theorem iscZpx (z : Byte) : Statement (.iscZpx z) := ⟨z, rfl, rfl⟩
theorem sed : Statement .sed := ⟨rfl, rfl⟩
theorem sbcAby (base : Word) : Statement (.sbcAby base) := ⟨base, rfl, rfl⟩
theorem unopFA : Statement .unopFA := ⟨rfl, rfl⟩
theorem iscAby (base : Word) : Statement (.iscAby base) := ⟨base, rfl, rfl⟩
theorem unopFC (base : Word) : Statement (.unopFC base) := ⟨base, rfl, rfl⟩
theorem sbcAbx (base : Word) : Statement (.sbcAbx base) := ⟨base, rfl, rfl⟩
theorem incAbx (base : Word) : Statement (.incAbx base) := ⟨base, rfl, rfl⟩
theorem iscAbx (base : Word) : Statement (.iscAbx base) := ⟨base, rfl, rfl⟩

end Sys2Proof.Laws.RowSelected
end

