-- ==== Sys2Proof/Laws/Ranges.lean ====
section
/-! SUPPORT. Every operation of the APU, the PPU, the mappers and the CPU's units keeps the counters in their ranges
(`State.RangesOk`). -/

namespace Sys2Proof.Machine

/-! ## The APU -/

theorem noisePeriods_le (i : Nat) : noisePeriods.getD i 1 - 1 ≤ 4067 := by
  by_cases h : i < 16
  · interval_cases i <;> decide
  · have : noisePeriods.getD i 1 = 1 := by
      rw [List.getD_eq_getElem?_getD, List.getElem?_eq_none (by simpa [noisePeriods] using h)]; rfl
    omega

theorem dmcRates_le (i : Nat) : dmcRates.getD i 1 - 1 ≤ 427 := by
  by_cases h : i < 16
  · interval_cases i <;> decide
  · have : dmcRates.getD i 1 = 1 := by
      rw [List.getD_eq_getElem?_getD, List.getElem?_eq_none (by simpa [dmcRates] using h)]; rfl
    omega

/-- The noise register never becomes 0 (R457). -/
theorem lfsrStep_ne_zero (mode : Bool) (l : BitVec 15) (h : l ≠ 0) : lfsrStep mode l ≠ 0 := by
  intro h0
  apply h
  have hb : ∀ i, i < 15 → (lfsrStep mode l).getLsbD i = false := by intro i _; rw [h0]; simp
  have hlow : ∀ i, 1 ≤ i → i < 15 → l.getLsbD i = false := by
    intro i h1 hi
    have := hb (i - 1) (by omega)
    unfold lfsrStep at this
    simp only [BitVec.getLsbD_or, BitVec.getLsbD_ushiftRight, Bool.or_eq_false_iff] at this
    rw [show 1 + (i - 1) = i by omega] at this
    exact this.1
  have h14 := hb 14 (by decide)
  apply BitVec.eq_of_getLsbD_eq
  intro i hi
  rw [show (0 : BitVec 15).getLsbD i = false from BitVec.getLsbD_zero]
  by_cases h1 : 1 ≤ i
  · exact hlow i h1 hi
  · obtain rfl : i = 0 := by omega
    have e1 := hlow 1 (by decide) (by decide)
    have e6 := hlow 6 (by decide) (by decide)
    unfold lfsrStep at h14
    simp only [BitVec.getLsbD_or, Bool.or_eq_false_iff] at h14
    have h2 := h14.2
    simp only [bit, e1, e6, ite_self, Bool.xor_false] at h2
    cases hl : l.getLsbD 0
    · rfl
    · rw [hl] at h2
      revert h2
      decide

theorem Pulse.timerTick_div (p : Pulse) (h : p.div ≤ 4095) : p.timerTick.div ≤ 4095 := by
  have := p.timer.isLt
  unfold Pulse.timerTick
  split
  · dsimp only; omega
  · dsimp only; omega

theorem Triangle.timerTick_div (t : Triangle) (h : t.div ≤ 2047) : t.timerTick.div ≤ 2047 := by
  have := t.timer.isLt
  unfold Triangle.timerTick
  split
  · dsimp only; omega
  · dsimp only; omega

theorem Pulse.half_div (cfg : Config) (o : Bool) (p : Pulse) : (p.half cfg o).div = p.div := by
  unfold Pulse.half Pulse.sweepClock
  dsimp only
  split <;> rfl

theorem Dmc.clockOutput_div (d : Dmc) : d.clockOutput.div = d.div := by
  unfold Dmc.clockOutput
  dsimp only
  repeat' split
  all_goals rfl

theorem Dmc.clockOutput_bitsLeft (d : Dmc) (h : 1 ≤ d.bitsLeft ∧ d.bitsLeft ≤ 8) :
    1 ≤ d.clockOutput.bitsLeft ∧ d.clockOutput.bitsLeft ≤ 8 := by
  unfold Dmc.clockOutput
  dsimp only
  split
  · split <;> exact ⟨Nat.le_add_left 1 7, Nat.le_refl 8⟩
  · rename_i h0; dsimp only; omega

variable {u : Apu} (h : u.RangesOk)

include h

theorem Apu.quarterFrame_rangesOk : u.quarterFrame.RangesOk := h

theorem Apu.halfFrame_rangesOk (cfg : Config) : (u.halfFrame cfg).RangesOk := by
  obtain ⟨⟨h1, h2, h3, h4, h5⟩, h6, h7, h8⟩ := h
  exact ⟨⟨by rw [Apu.halfFrame, Pulse.half_div]; exact h1, by rw [Apu.halfFrame, Pulse.half_div]; exact h2, h3, h4, h5⟩,
    h6, h7, h8⟩

theorem Apu.frameIrqEvent_rangesOk : u.frameIrqEvent.RangesOk := by
  unfold Apu.frameIrqEvent
  split <;> exact h

theorem Apu.fire_rangesOk (cfg : Config) (e : FrameEvents) : (u.fire cfg e).RangesOk := by
  have hq : (if e.quarter = true then u.quarterFrame else u).RangesOk := by
    split
    · exact Apu.quarterFrame_rangesOk h
    · exact h
  have hh : (if e.half = true then (if e.quarter = true then u.quarterFrame else u).halfFrame cfg
      else if e.quarter = true then u.quarterFrame else u).RangesOk := by
    split
    · exact Apu.halfFrame_rangesOk hq cfg
    · exact hq
  unfold Apu.fire
  dsimp only
  split
  · exact Apu.frameIrqEvent_rangesOk hh
  · exact hh

omit h in
theorem Apu.fire_fsMode (cfg : Config) (e : FrameEvents) : (u.fire cfg e).fsMode = u.fsMode := by
  unfold Apu.fire Apu.frameIrqEvent Apu.halfFrame Apu.quarterFrame
  dsimp only
  repeat' split
  all_goals rfl

theorem Apu.frameSequencerTick_rangesOk (cfg : Config) : (u.frameSequencerTick cfg).RangesOk := by
  obtain ⟨h1, h6, h7, -⟩ := Apu.fire_rangesOk h cfg (frameEvents u.fsMode (u.fsCount + 1))
  refine ⟨h1, h6, h7, ?_⟩
  have h8 := h.2.2.2
  have hm := Apu.fire_fsMode (u := u) cfg (frameEvents u.fsMode (u.fsCount + 1))
  unfold Apu.frameSequencerTick
  dsimp only
  rw [hm]
  split
  · unfold frameLength; split <;> decide
  · omega

theorem Apu.timerTicks_rangesOk : u.timerTicks.RangesOk := by
  obtain ⟨⟨h1, h2, h3, h4, h5⟩, h6, h7, h8⟩ := h
  refine ⟨⟨Pulse.timerTick_div _ h1, Pulse.timerTick_div _ h2, Triangle.timerTick_div _ h3, ?_, ?_⟩, ?_, ?_, h8⟩
  · show u.noise.timerTick.div ≤ 4067
    unfold Noise.timerTick
    split
    · exact noisePeriods_le _
    · dsimp only; omega
  · show u.dmc.timerTick.div ≤ 427
    unfold Dmc.timerTick
    split
    · rw [Dmc.clockOutput_div]; exact dmcRates_le _
    · dsimp only; omega
  · show u.noise.timerTick.lfsr ≠ 0
    unfold Noise.timerTick
    split
    · exact lfsrStep_ne_zero _ _ h6
    · exact h6
  · show 1 ≤ u.dmc.timerTick.bitsLeft ∧ u.dmc.timerTick.bitsLeft ≤ 8
    unfold Dmc.timerTick
    split
    · exact Dmc.clockOutput_bitsLeft _ h7
    · exact h7

/-- An APU tick keeps the counters in their ranges. -/
theorem Apu.tick_rangesOk (cfg : Config) : (u.tick cfg).RangesOk :=
  Apu.timerTicks_rangesOk (Apu.frameSequencerTick_rangesOk h cfg)

theorem Apu.writeFrameCounter_rangesOk (cfg : Config) (d : Byte) : (u.writeFrameCounter cfg d).RangesOk := by
  have h0 : Apu.RangesOk { u with
      fsMode := bit d 7, irqInhibit := bit d 6, frameIrq := u.frameIrq && !bit d 6, fsCount := 0 } :=
    ⟨h.1, h.2.1, h.2.2.1, by unfold frameLength; dsimp only; split <;> decide⟩
  unfold Apu.writeFrameCounter
  dsimp only
  split
  · exact Apu.halfFrame_rangesOk (Apu.quarterFrame_rangesOk h0) cfg
  · exact h0

theorem Apu.writeReg_rangesOk (reg : BitVec 5) (d : Byte) : (u.writeReg reg d).RangesOk := by
  obtain ⟨⟨h1, h2, h3, h4, h5⟩, h6, h7, h8⟩ := h
  have hp : ∀ (p : Pulse) (r : BitVec 2), (p.writeReg r d).div = p.div := by
    intro p r; unfold Pulse.writeReg; repeat' split
    all_goals rfl
  have ht : ∀ (t : Triangle) (r : BitVec 2), (t.writeReg r d).div = t.div := by
    intro p r; unfold Triangle.writeReg; repeat' split
    all_goals rfl
  have hn : ∀ (t : Noise) (r : BitVec 2), (t.writeReg r d).div = t.div ∧ (t.writeReg r d).lfsr = t.lfsr := by
    intro p r; unfold Noise.writeReg; repeat' split
    all_goals exact ⟨rfl, rfl⟩
  have hd : ∀ (t : Dmc) (r : BitVec 2), (t.writeReg r d).div = t.div ∧ (t.writeReg r d).bitsLeft = t.bitsLeft := by
    intro p r; unfold Dmc.writeReg; repeat' split
    all_goals exact ⟨rfl, rfl⟩
  unfold Apu.writeReg
  dsimp only
  split
  · exact ⟨⟨by rw [hp]; exact h1, h2, h3, h4, h5⟩, h6, h7, h8⟩
  split
  · exact ⟨⟨h1, by rw [hp]; exact h2, h3, h4, h5⟩, h6, h7, h8⟩
  split
  · exact ⟨⟨h1, h2, by rw [ht]; exact h3, h4, h5⟩, h6, h7, h8⟩
  split
  · exact ⟨⟨h1, h2, h3, by rw [(hn _ _).1]; exact h4, h5⟩, by rw [(hn _ _).2]; exact h6, h7, h8⟩
  · exact ⟨⟨h1, h2, h3, h4, by rw [(hd _ _).1]; exact h5⟩, h6, by rw [(hd _ _).2]; exact h7, h8⟩

theorem Apu.writeStatus_rangesOk (d : Byte) : (u.writeStatus d).RangesOk := by
  obtain ⟨⟨h1, h2, h3, h4, h5⟩, h6, h7, h8⟩ := h
  have hd : ∀ (t : Dmc) (b : Bool), (t.enable b).div = t.div ∧ (t.enable b).bitsLeft = t.bitsLeft := by
    intro p r; unfold Dmc.enable Dmc.restart; dsimp only; repeat' split
    all_goals exact ⟨rfl, rfl⟩
  exact ⟨⟨h1, h2, h3, h4, by rw [Apu.writeStatus, (hd _ _).1]; exact h5⟩, h6, by rw [Apu.writeStatus, (hd _ _).2]; exact h7, h8⟩

theorem Apu.readStatus_rangesOk : u.readStatus.2.RangesOk := h

theorem Apu.fill_rangesOk (v : Byte) : Apu.RangesOk { u with dmc := u.dmc.fill v } := by
  obtain ⟨⟨h1, h2, h3, h4, h5⟩, h6, h7, h8⟩ := h
  have hd : ∀ (t : Dmc), (t.fill v).div = t.div ∧ (t.fill v).bitsLeft = t.bitsLeft := by
    intro p; unfold Dmc.fill Dmc.restart; dsimp only; repeat' split
    all_goals exact ⟨rfl, rfl⟩
  exact ⟨⟨h1, h2, h3, h4, by rw [(hd _).1]; exact h5⟩, h6, by rw [(hd _).2]; exact h7, h8⟩

omit h

/-! ## The PPU's registers and the mappers -/

theorem writeReg_rangesOk (cfg : Config) (c : Option Cartridge) {p : Ppu} (hp : p.RangesOk) (reg : BitVec 3) (d : Byte) :
    (p.writeReg cfg c reg d).ppu.RangesOk := by
  rcases bv3_cases reg with rfl | rfl | rfl | rfl | rfl | rfl | rfl | rfl
  · exact hp
  · exact hp
  · exact hp
  · exact hp
  · exact hp
  · show (p.writeScroll d).RangesOk
    unfold Ppu.writeScroll
    split <;> exact hp
  · show (p.writeAddr d).RangesOk
    unfold Ppu.writeAddr
    split <;> exact hp
  · show (ppuWrite c p (p.v.setWidth 14) d).2.stepV.RangesOk
    unfold ppuWrite
    repeat' split
    all_goals exact hp

theorem readReg_rangesOk (c : Option Cartridge) {p : Ppu} (hp : p.RangesOk) (reg : BitVec 3) :
    (p.readReg c reg).2.RangesOk := by
  unfold Ppu.readReg
  repeat' split
  all_goals exact hp

theorem Mmc1.write_srCount {r : Mmc1} (h : r.srCount ≤ 4) (a : Word) (d : Byte) : (r.write a d).srCount ≤ 4 := by
  unfold Mmc1.write
  dsimp only
  split
  · exact Nat.zero_le 4
  · split
    · repeat' split
      all_goals exact Nat.zero_le 4
    · dsimp only; omega

theorem Mmc3.write_banks (r : Mmc3) (a : Word) (d : Byte) : (r.write a d).banks.length = r.banks.length := by
  unfold Mmc3.write
  dsimp only
  repeat' split
  all_goals first
    | rfl
    | exact List.length_set

theorem Mmc3.scanline_banks (r : Mmc3) : r.scanline.banks = r.banks := by
  unfold Mmc3.scanline
  dsimp only
  split <;> split <;> rfl

theorem Mapper.write_rangesOk {m : Mapper} (h : m.rangesOk = true) (a : Word) (d : Byte) :
    (m.write a d).rangesOk = true := by
  cases m with
  | m000 => rfl
  | m001 r => exact decide_eq_true (Mmc1.write_srCount (of_decide_eq_true h) a d)
  | m002 b => rfl
  | m003 b => rfl
  | m004 r =>
    show ((r.write a d).banks.length == 8) = true
    rw [Mmc3.write_banks]
    exact h

theorem Cartridge.scanline_rangesOk {c : Cartridge} (h : c.mapper.rangesOk = true) :
    c.scanline.mapper.rangesOk = true := by
  unfold Cartridge.scanline
  split
  · rename_i r hr
    show (r.scanline.banks.length == 8) = true
    rw [Mmc3.scanline_banks]
    rw [hr] at h
    exact h
  · exact h

theorem Cartridge.cpuWrite_rangesOk {c : Cartridge} (h : c.mapper.rangesOk = true) (a : Word) (d : Byte) :
    (c.cpuWrite a d).mapper.rangesOk = true := by
  unfold Cartridge.cpuWrite
  split
  · exact h
  · exact Mapper.write_rangesOk h a d

theorem ppuWrite_mapper (c : Option Cartridge) (p : Ppu) (a : PpuAddr) (d : Byte) :
    ∀ k ∈ (ppuWrite c p a d).1, ∃ k' ∈ c, k.mapper = k'.mapper := by
  unfold ppuWrite
  split
  · split
    · rintro _ ⟨⟩
      rename_i k
      refine ⟨k, rfl, ?_⟩
      unfold Cartridge.ppuWrite
      split <;> rfl
    · rintro _ ⟨⟩
  · split
    · exact fun k hk => ⟨k, hk, rfl⟩
    · exact fun k hk => ⟨k, hk, rfl⟩

/-! ## The bus and the CPU's units -/

theorem busRead_rangesOk {s : State} (h : s.RangesOk) (a : Word) : (busRead a s).2.RangesOk := by
  refine ⟨?_, ?_, ?_, ?_⟩
  · rw [busRead_cpu, busRead_cfg]; exact h.1
  · unfold busRead
    split
    · exact h.2.1
    · unfold deviceRead
      repeat' split
      all_goals first
        | exact h.2.1
        | (rename_i he
           have := readReg_rangesOk s.cart h.2.1 (field a 0 3)
           rw [he] at this
           exact this)
  · unfold busRead
    split
    · exact h.2.2.1
    · unfold deviceRead
      repeat' split
      all_goals first
        | exact h.2.2.1
        | (rename_i he
           have := Apu.readStatus_rangesOk h.2.2.1
           rw [he] at this
           exact this)
  · rw [busRead_cart]; exact h.2.2.2

theorem busWrite_rangesOk {s : State} (h : s.RangesOk) (a : Word) (v : Byte) : (busWrite a v s).RangesOk := by
  obtain ⟨hc, hp, hu, hm⟩ := h
  have hd : (deviceWrite a v s).RangesOk := by
    unfold deviceWrite
    split
    · exact ⟨hc, hp, hu, hm⟩
    split
    · refine ⟨hc, writeReg_rangesOk _ _ hp _ _, hu, ?_⟩
      intro k hk
      rcases bv3_cases (field a 0 3) with e | e | e | e | e | e | e | e <;> rw [e] at hk
      case inr.inr.inr.inr.inr.inr.inr =>
        obtain ⟨k', hk', e'⟩ := ppuWrite_mapper s.cart s.ppu (s.ppu.v.setWidth 14) v k hk
        rw [e']
        exact hm k' hk'
      all_goals exact hm k hk
    split
    · exact ⟨hc, hp, Apu.writeReg_rangesOk hu _ _, hm⟩
    split
    · exact ⟨⟨hc.1, hc.2.1, hc.2.2.1, fun hf => Bool.noConfusion hf⟩, hp, hu, hm⟩
    split
    · exact ⟨hc, hp, Apu.writeStatus_rangesOk hu _, hm⟩
    split
    · exact ⟨hc, hp, hu, hm⟩
    split
    · exact ⟨hc, hp, Apu.writeFrameCounter_rangesOk hu _ _, hm⟩
    · exact ⟨hc, hp, hu, hm⟩
  unfold busWrite
  split
  · rename_i c hcart
    split
    · refine ⟨hc, hp, hu, ?_⟩
      rintro _ ⟨⟩
      exact Cartridge.cpuWrite_rangesOk (hm c hcart) a v
    · exact hd
  · exact hd

theorem dmaStep_rangesOk {s : State} (ha : s.cpu.dmaActive = true) (h : s.RangesOk) : (dmaStep s).RangesOk := by
  unfold dmaStep
  split
  · split
    · exact ⟨⟨h.1.1, h.1.2.1, h.1.2.2.1, fun hf => by rw [ha] at hf; cases hf⟩, h.2⟩
    · exact h
  · split
    · exact busRead_rangesOk h _
    · refine ⟨?_, ?_, h.2.2⟩
      · show s.cpu.dmaAdvance.RangesOk s.cfg
        unfold Cpu.dmaAdvance
        dsimp only
        split
        · rename_i h0; exact ⟨h.1.1, h.1.2.1, h.1.2.2.1, fun _ => ⟨rfl, h0⟩⟩
        · exact ⟨h.1.1, h.1.2.1, h.1.2.2.1, fun hf => by rw [show s.cpu.dmaActive = false from hf] at ha; cases ha⟩
      · show (s.ppu.oamDmaWrite _ _ _).RangesOk
        unfold Ppu.oamDmaWrite
        split <;> exact h.2.1

theorem dmcFetchStep_rangesOk {s : State} (ha : s.cpu.dmcFetchPending = true) (h : s.RangesOk) :
    (dmcFetchStep s).RangesOk := by
  have hn : s.cpu.nextStall ≤ 3 := by
    have := h.1.2.1
    unfold Cpu.nextStall
    split <;> omega
  have h' : State.RangesOk { s with cpu := { s.cpu with dmcStall := s.cpu.nextStall } } :=
    ⟨⟨h.1.1, hn, fun _ => ha, h.1.2.2.2⟩, h.2⟩
  unfold dmcFetchStep
  dsimp only
  split
  · rename_i h0
    have hr := busRead_rangesOk h' s.cpu.dmcFetchAddr
    refine ⟨?_, hr.2.1, Apu.fill_rangesOk hr.2.2.1 _, hr.2.2.2⟩
    unfold dmcDeliver
    dsimp only
    rw [busRead_cpu, busRead_cfg]
    exact ⟨h'.1.1, hn, fun hf => absurd h0 hf, h'.1.2.2.2⟩
  · exact h'

theorem ppuClock_rangesOk {s : State} (h : s.RangesOk) : (ppuClock s).RangesOk := by
  refine ⟨h.1, ppuTick_rangesOk s.cart s.ppu s.cfg h.2.1, h.2.2.1, ?_⟩
  intro k hk
  rcases ppuTick_cart s.cart s.ppu s.cfg with e | e
  · exact h.2.2.2 k (e ▸ hk)
  · have hk' : k ∈ s.cart.map Cartridge.scanline := e ▸ hk
    obtain ⟨c, hc, rfl⟩ := Option.mem_map.1 hk'
    exact Cartridge.scanline_rangesOk (h.2.2.2 c hc)

theorem apuClock_rangesOk {s : State} (h : s.RangesOk) : (apuClock s).RangesOk := by
  have ht := Apu.tick_rangesOk h.2.2.1 s.cfg
  unfold apuClock dmcReaderCheck
  split
  · split
    · exact ⟨⟨h.1.1, h.1.2.1, fun _ => rfl, h.1.2.2.2⟩, h.2.1, ht, h.2.2.2⟩
    · exact ⟨h.1, h.2.1, ht, h.2.2.2⟩
  · exact h

end Sys2Proof.Machine
end

