-- ==== Sys2Proof/Laws/Step.lean ====
section
/-! SUPPORT. What one step can do, said once: an invariant of the step follows from one fact for each action of the CPU, of
the DMA units and of the devices. -/

namespace Sys2Proof.Machine

/-- The largest cycle count an instruction or an interrupt entry loads (R35, R300). -/
def cycleBound (cfg : Config) : Nat := max 8 (max cfg.intCyclesNmi cfg.intCyclesIrq)

theorem le_cycleBound_nmi (cfg : Config) : cfg.intCyclesNmi ≤ cycleBound cfg := by unfold cycleBound; omega
theorem le_cycleBound_irq (cfg : Config) : cfg.intCyclesIrq ≤ cycleBound cfg := by unfold cycleBound; omega

/-- A property that every part of a step keeps. -/
structure KeptByParts (Q : State → Prop) : Prop where
  read : ∀ a s, Q s → Q (busRead a s).2
  write : ∀ a v s, Q s → Q (busWrite a v s)
  regs : ∀ s a x y sp pc w, Q s →
    Q { s with cpu := { s.cpu with a := a, x := x, y := y, sp := sp, pc := pc, iWindow := w } }
  status : ∀ s p, (SameBU s.cpu.p p ∨ (flagB p = false ∧ flagU p = true)) → Q s → Q (s.setP p)
  cycles : ∀ s n, n ≤ cycleBound s.cfg → Q s → Q (s.setCycles n)
  countDown : ∀ s, Q s → Q (countDown s)
  forceU : ∀ s, Q s → Q s.forceU
  nmiTaken : ∀ s, Q s → Q { s with cpu := { s.cpu with nmiPending := false } }
  dma : ∀ s, s.cpu.dmaActive = true → Q s → Q (dmaStep s)
  dmc : ∀ s, s.cpu.dmcFetchPending = true → Q s → Q (dmcFetchStep s)
  ppu : ∀ s, Q s → Q (ppuClock s)
  apu : ∀ s, Q s → Q (apuClock s)
  clock : ∀ s, Q s → Q { s with sysclk := s.sysclk + 1 }

namespace KeptByParts

variable {Q : State → Prop} (h : KeptByParts Q) {s t : State}

include h

theorem acts {W : Prop} (hs : Q s) (a : CpuActs W s t) : Q t := by
  induction a with
  | refl => exact hs
  | read a _ ih => exact h.read a _ ih
  | write a v _ ih => exact h.write a v _ ih
  | regs a x y sp pc _ ih => exact h.regs _ a x y sp pc _ ih
  | window w _ _ ih => exact h.regs _ _ _ _ _ _ w ih
  | status p hp _ ih => exact h.status _ p hp ih
  | cycles n hn _ ih => exact h.cycles _ n (Nat.le_trans hn (Nat.le_max_left _ _)) ih

theorem exec (i : Instr) (hs : Q s) (he : Machine.exec i s = .next t) : Q t := h.acts hs (exec_acts i s t he)

theorem fetchInstr (hs : Q s) : Q (Machine.fetchInstr s).2 := by
  have hb : ∀ u, Q u → Q (fetchByte u).2 := fun u hu => h.acts (W := False) hu (CpuActs.setPC _ (CpuActs.refl.read _))
  unfold Machine.fetchInstr
  dsimp only
  split
  · exact hb _ hs
  · exact hb _ hs
  · exact hb _ (hb _ hs)
  · exact hb _ (hb _ (hb _ hs))

theorem boundary (hs : Q s) (hb : Machine.boundary s = .next t) : Q t := by
  unfold Machine.boundary at hb
  dsimp only at hb
  have hw : Q (s.setIWindow none) := h.regs _ _ _ _ _ _ none hs
  obtain ⟨u, hu, rfl⟩ := mapNext_eq_next.1 hb
  apply h.forceU
  split at hu
  · cases hu
    have a := (CpuActs.refl (W := False)).takeException vectorNmi false (t :=
      { s.setIWindow none with cpu := { (s.setIWindow none).cpu with nmiPending := false } })
    refine h.cycles _ _ ?_ (h.acts (h.nmiTaken _ hw) a)
    rw [a.cfg]
    exact le_cycleBound_nmi s.cfg
  · split at hu
    · cases hu
      have a := (CpuActs.refl (W := False)).takeException vectorIrq false (t := s.setIWindow none)
      refine h.cycles _ _ ?_ (h.acts hw a)
      rw [a.cfg]
      exact le_cycleBound_irq s.cfg
    · exact h.exec _ (h.fetchInstr hw) hu

theorem cpuTick (hs : Q s) (hb : Machine.cpuTick s = .next t) : Q t := by
  unfold Machine.cpuTick at hb
  split at hb
  · rename_i hd; cases hb; exact h.dma _ hd hs
  · split at hb
    · rename_i hd; cases hb; exact h.dmc _ hd hs
    · split at hb
      · obtain ⟨u, hu, rfl⟩ := mapNext_eq_next.1 hb
        exact h.countDown _ (h.boundary hs hu)
      · cases hb; exact h.countDown _ hs

theorem devicesTick (hs : Q s) : Q (Machine.devicesTick s) := h.clock _ (h.apu _ (h.ppu _ hs))

/-- A property that every part keeps is kept by every step. -/
theorem step (hs : Q s) (hb : Machine.step s = .next t) : Q t := by
  obtain ⟨u, hu, rfl⟩ := mapNext_eq_next.1 (show mapNext Machine.devicesTick (cpuClock s) = .next t from hb)
  apply h.devicesTick
  unfold cpuClock at hu
  split at hu
  · exact h.cpuTick hs hu
  · cases hu; exact hs

end KeptByParts

end Sys2Proof.Machine
end

