-- ==== Sys2Proof/Laws/Video.lean ====
section
/-! SUPPORT. What the PPU's stages compute, as numbers: the scroll steps, the background fetches, the shifters, and a
tick as a change of named fields. -/

namespace Sys2Proof.Machine

variable (c : Option Cartridge) (p : Ppu)

/-- `IncrementX` while rendering is on (R377). -/
theorem Ppu.incrementX_toNat (h : p.rendering = true) : p.incrementX.v.toNat = coarseXStep p.v.toNat := by
  have hv := p.v.isLt
  have e : (field p.v 0 5 : BitVec 5).toNat = p.v.toNat % 32 := by rw [toNat_field]; simp
  have e31 : (field p.v 0 5 : BitVec 5) = 31 ↔ p.v.toNat % 32 = 31 := by rw [← BitVec.toNat_inj, e]; rfl
  have z : (0 : BitVec 5).toNat = 0 := rfl
  have one : (1 : BitVec 5).toNat = 1 := rfl
  unfold Ppu.incrementX coarseXStep
  simp only [h, Bool.not_true, Bool.false_eq_true, if_false, e31]
  split
  · rw [toNat_setBit _ _ _ (by decide), toNat_not_bit, toNat_putField _ _ _ (by decide), z]
    norm_num
    omega
  · rw [toNat_putField _ _ _ (by decide), BitVec.toNat_add, e, one]
    norm_num
    omega

/-- `IncrementY` while rendering is on (R377). -/
theorem Ppu.incrementY_toNat (h : p.rendering = true) : p.incrementY.v.toNat = fineYStep p.v.toNat := by
  have hv := p.v.isLt
  have ef : (field p.v 12 3 : BitVec 3).toNat = p.v.toNat / 4096 := by rw [toNat_field]; norm_num; omega
  have ec : (field p.v 5 5 : BitVec 5).toNat = p.v.toNat / 32 % 32 := by rw [toNat_field]; norm_num
  have e7 : (field p.v 12 3 : BitVec 3) < 7 ↔ p.v.toNat / 4096 < 7 := by rw [BitVec.lt_def, ef]; rfl
  have e29 : (field p.v 5 5 : BitVec 5) = 29 ↔ p.v.toNat / 32 % 32 = 29 := by rw [← BitVec.toNat_inj, ec]; rfl
  have e31 : (field p.v 5 5 : BitVec 5) = 31 ↔ p.v.toNat / 32 % 32 = 31 := by rw [← BitVec.toNat_inj, ec]; rfl
  have z5 : (0 : BitVec 5).toNat = 0 := rfl
  have z3 : (0 : BitVec 3).toNat = 0 := rfl
  have one3 : (1 : BitVec 3).toNat = 1 := rfl
  have one5 : (1 : BitVec 5).toNat = 1 := rfl
  have e0 : (putField p.v 12 (0 : BitVec 3)).toNat = p.v.toNat % 4096 := by
    rw [toNat_putField _ _ _ (by decide), z3]; norm_num; omega
  unfold Ppu.incrementY fineYStep
  simp only [h, Bool.not_true, Bool.false_eq_true, if_false, e7, e29, e31]
  split
  · rw [toNat_putField _ _ _ (by decide), BitVec.toNat_add, ef, one3]
    norm_num
    omega
  · split
    · rw [toNat_setBit _ _ _ (by decide), toNat_not_bit, toNat_putField _ _ _ (by decide), e0, z5]
      norm_num
      omega
    · split
      · rw [toNat_putField _ _ _ (by decide), e0, z5]
        norm_num
        omega
      · rw [toNat_putField _ _ _ (by decide), e0, BitVec.toNat_add, ec, one5]
        norm_num
        omega

/-- `TransferX` while rendering is on (R378). -/
theorem Ppu.transferX_toNat (h : p.rendering = true) : p.transferX.v.toNat = transferXStep p.v.toNat p.t.toNat := by
  have hv := p.v.isLt
  unfold Ppu.transferX transferXStep
  simp only [h, Bool.not_true, Bool.false_eq_true, if_false]
  rw [toNat_putField _ _ _ (by decide), toNat_setBit _ _ _ (by decide), toNat_bit, toNat_field]
  norm_num
  omega

/-- `TransferY` while rendering is on (R378). -/
theorem Ppu.transferY_toNat (h : p.rendering = true) : p.transferY.v.toNat = transferYStep p.v.toNat p.t.toNat := by
  have hv := p.v.isLt
  have ht := p.t.isLt
  unfold Ppu.transferY transferYStep
  simp only [h, Bool.not_true, Bool.false_eq_true, if_false]
  have e1 : (setBit p.v 11 (bit p.t 11)).toNat =
      p.v.toNat / 4096 * 4096 + p.t.toNat / 2048 % 2 * 2048 + p.v.toNat % 2048 := by
    rw [toNat_setBit _ _ _ (by decide), toNat_bit]
    norm_num
  generalize setBit p.v 11 (bit p.t 11) = v1 at e1 ⊢
  have q1 : v1.toNat % 32 = p.v.toNat % 32 := by omega
  have q2 : v1.toNat / 1024 % 2 = p.v.toNat / 1024 % 2 := by omega
  have q3 : v1.toNat / 2048 % 2 = p.t.toNat / 2048 % 2 := by omega
  have e2 : (putField v1 5 (field p.t 5 5 : BitVec 5)).toNat =
      v1.toNat / 1024 * 1024 + p.t.toNat / 32 % 32 * 32 + v1.toNat % 32 := by
    rw [toNat_putField _ _ _ (by decide), toNat_field]
    norm_num
  generalize putField v1 5 (field p.t 5 5 : BitVec 5) = v2 at e2 ⊢
  have q4 : v2.toNat % 4096 = v1.toNat / 2048 % 2 * 2048 + v1.toNat / 1024 % 2 * 1024 + p.t.toNat / 32 % 32 * 32 +
      v1.toNat % 32 := by clear q1 q2 q3 e1; omega
  rw [q1, q2, q3] at q4
  have h2 := v2.isLt
  rw [toNat_putField _ _ _ (by decide), toNat_field]
  norm_num at h2 ht ⊢
  rw [q4, Nat.div_eq_of_lt h2]
  clear q1 q2 q3 q4 e1 e2
  omega
/-! ## A tick as a change of named fields -/

/-- After the fetches a tick changes only the pixel, the hit and vblank flags, the position and the frame flags (R370). -/
theorem ppuTick_eq (cfg : Config) : ∃ r0 st fb sl cy fc od,
    (ppuTick cfg c p).ppu = { (p.applyOddFrameSkip cfg).fetchTick c with
      spr0Rendering := r0, status := st, framebuffer := fb
      scanline := sl, cycle := cy, frameComplete := fc, oddFrame := od } := by
  unfold ppuTick
  dsimp only
  generalize (p.applyOddFrameSkip cfg).fetchTick c = f
  generalize (if f.notifies = true then _ else _) = c'
  obtain ⟨st, h⟩ : ∃ st, (if f.atVblank = true then { f with status := setBit f.status 7 true } else f) =
      { f with status := st } := by split <;> exact ⟨_, rfl⟩
  rw [h]
  obtain ⟨r0, st', fb, h', -⟩ := Ppu.pixelTick_eq c' { f with status := st }
  rw [h']
  obtain ⟨sl, cy, fc, od, h''⟩ := Ppu.advance_eq { f with status := st', spr0Rendering := r0, framebuffer := fb }
  exact ⟨r0, st', fb, sl, cy, fc, od, h''⟩

/-- The sprite part of a tick changes only the sprite list and the overflow flag (R381, R382). -/
theorem Ppu.spriteTick_eq : ∃ sp n z st, p.spriteTick c =
    { p with sprites := sp, sprCount := n, spr0Possible := z, status := st } := by
  unfold Ppu.spriteTick
  obtain ⟨sp, n, z, st, h⟩ : ∃ sp n z st, (if p.cycle = 257 ∧ 0 ≤ p.scanline then p.evaluateSprites else p) =
      { p with sprites := sp, sprCount := n, spr0Possible := z, status := st } := by
    split
    · exact ⟨_, _, _, _, rfl⟩
    · exact ⟨_, _, _, _, rfl⟩
  rw [h]
  dsimp only
  split
  · exact ⟨_, _, _, _, rfl⟩
  · exact ⟨_, _, _, _, rfl⟩

/-- The clearing of the pre-render line changes only the status flags and the sprite list (R370). -/
theorem Ppu.preRenderClear_eq : ∃ sp n st, p.preRenderClear = { p with sprites := sp, sprCount := n, status := st } := by
  unfold Ppu.preRenderClear
  split <;> exact ⟨_, _, _, rfl⟩

/-- The shift of the background shifters (R380). -/
theorem Ppu.updateShifters_eq : ∃ sp, p.updateShifters = { p with
    bgPatLo := if bit p.mask 3 = true then p.bgPatLo <<< 1 else p.bgPatLo
    bgPatHi := if bit p.mask 3 = true then p.bgPatHi <<< 1 else p.bgPatHi
    bgAttLo := if bit p.mask 3 = true then p.bgAttLo <<< 1 else p.bgAttLo
    bgAttHi := if bit p.mask 3 = true then p.bgAttHi <<< 1 else p.bgAttHi
    sprites := sp } := by
  unfold Ppu.updateShifters
  cases bit p.mask 3 <;> simp <;> split <;> exact ⟨_, rfl⟩

/-- `v` after a scroll step that is a no-op unless rendering is enabled (R377, R378): nothing else changes. -/
theorem Ppu.incrementX_eq : ∃ v, p.incrementX = { p with v := v } ∧
    v.toNat = if p.rendering = true then coarseXStep p.v.toNat else p.v.toNat := by
  refine ⟨p.incrementX.v, ?_, ?_⟩
  · unfold Ppu.incrementX
    repeat' split
    all_goals rfl
  · cases h : p.rendering
    · simp [Ppu.incrementX, h]
    · simpa using p.incrementX_toNat h

theorem Ppu.incrementY_eq : ∃ v, p.incrementY = { p with v := v } ∧
    v.toNat = if p.rendering = true then fineYStep p.v.toNat else p.v.toNat := by
  refine ⟨p.incrementY.v, ?_, ?_⟩
  · unfold Ppu.incrementY
    dsimp only
    repeat' split
    all_goals rfl
  · cases h : p.rendering
    · simp [Ppu.incrementY, h]
    · simpa using p.incrementY_toNat h

theorem Ppu.transferX_eq : ∃ v, p.transferX = { p with v := v } ∧
    v.toNat = if p.rendering = true then transferXStep p.v.toNat p.t.toNat else p.v.toNat := by
  refine ⟨p.transferX.v, ?_, ?_⟩
  · unfold Ppu.transferX
    split <;> rfl
  · cases h : p.rendering
    · simp [Ppu.transferX, h]
    · simpa using p.transferX_toNat h

theorem Ppu.transferY_eq : ∃ v, p.transferY = { p with v := v } ∧
    v.toNat = if p.rendering = true then transferYStep p.v.toNat p.t.toNat else p.v.toNat := by
  refine ⟨p.transferY.v, ?_, ?_⟩
  · unfold Ppu.transferY
    split <;> rfl
  · cases h : p.rendering
    · simp [Ppu.transferY, h]
    · simpa using p.transferY_toNat h

/-! ## The fetch addresses and the shifters, as numbers -/

theorem Ppu.nametableAddr_eq : p.nametableAddr = BitVec.ofNat 14 (0x2000 + p.v.toNat % 4096) := by
  have e : (p.v &&& (0x0FFF : BitVec 15)).toNat = p.v.toNat % 4096 := by
    rw [BitVec.toNat_and]; exact Nat.and_two_pow_sub_one_eq_mod _ 12
  have e2 : (0x2000 : BitVec 14).toNat = 8192 := rfl
  have h : p.v.toNat % 4096 < 2 ^ 13 := by omega
  have hor := Nat.two_pow_add_eq_or_of_lt h 1
  norm_num at hor
  apply BitVec.eq_of_toNat_eq
  unfold Ppu.nametableAddr
  rw [BitVec.toNat_or, BitVec.toNat_setWidth, e, e2, BitVec.toNat_ofNat]
  norm_num
  rw [Nat.mod_eq_of_lt (by omega : p.v.toNat % 4096 < 16384), ← hor]
  omega

theorem Ppu.patternAddr_eq (o : Nat) : p.patternAddr (BitVec.ofNat 14 o) =
    BitVec.ofNat 14 ((bit p.ctrl 4).toNat * 4096 + p.bgNextTileId.toNat * 16 + p.v.toNat / 4096 + o) := by
  have hv := p.v.isLt
  have hid := p.bgNextTileId.isLt
  have ef : (field p.v 12 3 : BitVec 3).toNat = p.v.toNat / 4096 := by rw [toNat_field]; norm_num; omega
  have hb : (bit p.ctrl 4).toNat ≤ 1 := Bool.toNat_le _
  apply BitVec.eq_of_toNat_eq
  unfold Ppu.patternAddr
  simp only [BitVec.toNat_add, BitVec.toNat_shiftLeft, BitVec.toNat_setWidth, ef, toNat_ofBit _ 14 (by decide),
    BitVec.toNat_ofNat, Nat.shiftLeft_eq]
  generalize (bit p.ctrl 4).toNat = b at *
  omega

theorem Ppu.attributeAddr_eq : p.attributeAddr =
    BitVec.ofNat 14 (0x23C0 + p.v.toNat / 1024 % 4 * 1024 + p.v.toNat / 128 % 8 * 8 + p.v.toNat / 4 % 8) := by
  have hv := p.v.isLt
  have e1 : (p.v &&& (0x0C00 : BitVec 15)).toNat = p.v.toNat / 1024 % 4 * 1024 := by
    have e : p.v &&& (0x0C00 : BitVec 15) = (field p.v 10 2 : BitVec 2).setWidth 15 <<< 10 := by
      apply BitVec.eq_of_getLsbD_eq
      intro i hi
      have := bit_field p.v 10 2
      unfold bit at this
      rw [BitVec.getLsbD_and, BitVec.getLsbD_shiftLeft, BitVec.getLsbD_setWidth, this]
      interval_cases i <;> simp
    rw [e, BitVec.toNat_shiftLeft, BitVec.toNat_setWidth, toNat_field, Nat.shiftLeft_eq]
    omega
  have f1 : ((field p.v 5 5 : BitVec 5) >>> 2).toNat = p.v.toNat / 128 % 8 := by
    rw [BitVec.toNat_ushiftRight, toNat_field, Nat.shiftRight_eq_div_pow]; omega
  have f2 : ((field p.v 0 5 : BitVec 5) >>> 2).toNat = p.v.toNat / 4 % 8 := by
    rw [BitVec.toNat_ushiftRight, toNat_field, Nat.shiftRight_eq_div_pow]; omega
  apply BitVec.eq_of_toNat_eq
  unfold Ppu.attributeAddr
  simp only [BitVec.toNat_or, BitVec.toNat_setWidth, BitVec.toNat_shiftLeft, e1, f1, f2]
  have hx : p.v.toNat / 1024 % 4 < 4 := Nat.mod_lt _ (by decide)
  have hy : p.v.toNat / 128 % 8 < 8 := Nat.mod_lt _ (by decide)
  have hz : p.v.toNat / 4 % 8 < 8 := Nat.mod_lt _ (by decide)
  generalize p.v.toNat / 1024 % 4 = x at *
  generalize p.v.toNat / 128 % 8 = y at *
  generalize p.v.toNat / 4 % 8 = z at *
  clear e1 f1 f2
  interval_cases x <;> interval_cases y <;> interval_cases z <;> rfl

theorem Ppu.attributeFetch_toNat : (p.attributeFetch c).toNat =
    (ppuRead c p (BitVec.ofNat 14
      (0x23C0 + p.v.toNat / 1024 % 4 * 1024 + p.v.toNat / 128 % 8 * 8 + p.v.toNat / 4 % 8))).toNat /
        16 ^ (p.v.toNat / 64 % 2) / 4 ^ (p.v.toNat / 2 % 2) % 4 := by
  have hand : ∀ d : Byte, (d &&& 3).toNat = d.toNat % 4 := by decide
  unfold Ppu.attributeFetch
  dsimp only
  rw [p.attributeAddr_eq, hand, bit_toNat, bit_toNat]
  generalize ppuRead c p _ = b
  rcases Nat.mod_two_eq_zero_or_one (p.v.toNat / 64) with h6 | h6 <;>
    rcases Nat.mod_two_eq_zero_or_one (p.v.toNat / 2) with h1 | h1 <;>
    simp [h6, h1, Nat.shiftRight_eq_div_pow]
  omega

theorem toNat_shl_one (x : BitVec 16) : (x <<< 1).toNat = 2 * x.toNat % 65536 := by
  rw [BitVec.toNat_shiftLeft, Nat.shiftLeft_eq, Nat.mul_comm, Nat.pow_one]

theorem toNat_putField_low (x : BitVec 16) (b : Byte) : (putField x 0 b).toNat = x.toNat / 256 * 256 + b.toNat := by
  rw [toNat_putField _ _ _ (by decide)]; norm_num; omega

/-- A read of the PPU bus depends on the PPU's memories and its greyscale bit alone (R360). -/
theorem ppuRead_congr {q : Ppu} (a : PpuAddr) (h1 : q.patternRam = p.patternRam) (h2 : q.nametable = p.nametable)
    (h3 : q.palette = p.palette) (h4 : q.mask = p.mask) : ppuRead c q a = ppuRead c p a := by
  unfold ppuRead
  rw [h1, h2, h3, h4]

/-- Two bits as a number. -/
theorem toNat_twoBits (hi lo : Bool) : (twoBits hi lo).toNat = 2 * hi.toNat + lo.toNat := by
  revert hi lo; decide

/-- The front-most opaque sprite pixel is the first opaque one of the units in use (R391). -/
theorem firstSpritePixel_eq_find (us : List SpriteUnit) (n i : Nat) :
    let unit (k : Nat) : SpriteUnit := us.getD k ⟨0, 0, 0, 0, 0, 0⟩
    let px (k : Nat) : BitVec 2 := twoBits (bit (unit k).hi 7) (bit (unit k).lo 7)
    firstSpritePixel n i (us.drop i) =
      ((List.range' i n).find? fun k =>
        decide ((unit k).x = 0) && decide (2 * (bit (unit k).hi 7).toNat + (bit (unit k).lo 7).toNat ≠ 0)).map
          fun k => (k, px k, (unit k).attr) := by
  intro unit px
  induction n generalizing i with
  | zero => simp [firstSpritePixel]
  | succ n ih =>
    rw [List.range'_succ, List.find?_cons]
    by_cases h : i < us.length
    · have hd : us.drop i = us[i] :: us.drop (i + 1) := List.drop_eq_getElem_cons h
      have hg : unit i = us[i] := by simp [unit, List.getD, h]
      have hz : twoBits (bit us[i].hi 7) (bit us[i].lo 7) ≠ 0 ↔
          2 * (bit us[i].hi 7).toNat + (bit us[i].lo 7).toNat ≠ 0 := by
        rw [← toNat_twoBits, not_iff_not, ← BitVec.toNat_inj]; rfl
      rw [hd, firstSpritePixel, hg]
      simp only [hz]
      by_cases hc : us[i].x = 0 ∧ 2 * (bit us[i].hi 7).toNat + (bit us[i].lo 7).toNat ≠ 0
      · have hb : (decide (us[i].x = 0) && decide (2 * (bit us[i].hi 7).toNat + (bit us[i].lo 7).toNat ≠ 0)) = true := by
          rw [← Bool.decide_and]; exact decide_eq_true hc
        rw [if_pos hc, hb, Option.map_some]
        simp only [px, hg]
      · rw [if_neg hc, ih, ← Bool.decide_and]
        simp only [hc, decide_false]
    · have hd : us.drop i = [] := List.drop_eq_nil_of_le (by omega)
      have hd' : us.drop (i + 1) = [] := List.drop_eq_nil_of_le (by omega)
      have hg : unit i = ⟨0, 0, 0, 0, 0, 0⟩ := by simp [unit, List.getD, h]
      have hi := ih (i + 1)
      have hn : firstSpritePixel n (i + 1) [] = none := by cases n <;> rfl
      rw [hd', hn] at hi
      have hb : (decide ((unit i).x = 0) && decide (2 * (bit (unit i).hi 7).toNat + (bit (unit i).lo 7).toNat ≠ 0)) =
          false := by rw [hg]; rfl
      rw [hd, hb]
      exact hi

end Sys2Proof.Machine
end

