-- ==== Sys2Proof/Tests/Slice0.lean ====
section
/-! SUPPORT. Small tests, their expected results from the spec's encodings, examples and vectors, and for every obligation
with hypotheses a witness that meets them. -/

open Sys2Proof Sys2Proof.Machine

namespace Sys2Proof.Tests

/-! ## Decoding: every row of the matrix of R118, its operand bytes from R100 (an address is low byte first) -/

theorem test_decode_row0 :
    decode [0x00, 0x55] = .ok (.brk, []) ∧ decode [0x01, 0x9A] = .ok (.oraIzx 0x9A, []) ∧
    decode [0x02] = .ok (.jam02, []) ∧ decode [0x03, 0x9A] = .ok (.sloIzx 0x9A, []) ∧
    decode [0x04, 0x9A] = .ok (.unop04 0x9A, []) ∧ decode [0x05, 0x9A] = .ok (.oraZp0 0x9A, []) ∧
    decode [0x06, 0x9A] = .ok (.aslZp0 0x9A, []) ∧ decode [0x07, 0x9A] = .ok (.sloZp0 0x9A, []) ∧
    decode [0x08] = .ok (.php, []) ∧ decode [0x09, 0x9A] = .ok (.oraImm 0x9A, []) ∧
    decode [0x0A] = .ok (.aslImp, []) ∧ decode [0x0B, 0x9A] = .ok (.anc0B 0x9A, []) ∧
    decode [0x0C, 0x34, 0x12] = .ok (.unop0C 0x1234, []) ∧ decode [0x0D, 0x34, 0x12] = .ok (.oraAbs 0x1234, []) ∧
    decode [0x0E, 0x34, 0x12] = .ok (.aslAbs 0x1234, []) ∧ decode [0x0F, 0x34, 0x12] = .ok (.sloAbs 0x1234, []) :=
  ⟨rfl, rfl, rfl, rfl, rfl, rfl, rfl, rfl, rfl, rfl, rfl, rfl, rfl, rfl, rfl, rfl⟩

theorem test_decode_row1 :
    decode [0x10, 0x9A] = .ok (.bpl 0x9A, []) ∧ decode [0x11, 0x9A] = .ok (.oraIzy 0x9A, []) ∧
    decode [0x12] = .ok (.jam12, []) ∧ decode [0x13, 0x9A] = .ok (.sloIzy 0x9A, []) ∧
    decode [0x14, 0x9A] = .ok (.unop14 0x9A, []) ∧ decode [0x15, 0x9A] = .ok (.oraZpx 0x9A, []) ∧
    decode [0x16, 0x9A] = .ok (.aslZpx 0x9A, []) ∧ decode [0x17, 0x9A] = .ok (.sloZpx 0x9A, []) ∧
    decode [0x18] = .ok (.clc, []) ∧ decode [0x19, 0x34, 0x12] = .ok (.oraAby 0x1234, []) ∧
    decode [0x1A] = .ok (.unop1A, []) ∧ decode [0x1B, 0x34, 0x12] = .ok (.sloAby 0x1234, []) ∧
    decode [0x1C, 0x34, 0x12] = .ok (.unop1C 0x1234, []) ∧ decode [0x1D, 0x34, 0x12] = .ok (.oraAbx 0x1234, []) ∧
    decode [0x1E, 0x34, 0x12] = .ok (.aslAbx 0x1234, []) ∧ decode [0x1F, 0x34, 0x12] = .ok (.sloAbx 0x1234, []) :=
  ⟨rfl, rfl, rfl, rfl, rfl, rfl, rfl, rfl, rfl, rfl, rfl, rfl, rfl, rfl, rfl, rfl⟩

theorem test_decode_row2 :
    decode [0x20, 0x34, 0x12] = .ok (.jsr 0x1234, []) ∧ decode [0x21, 0x9A] = .ok (.andIzx 0x9A, []) ∧
    decode [0x22] = .ok (.jam22, []) ∧ decode [0x23, 0x9A] = .ok (.rlaIzx 0x9A, []) ∧
    decode [0x24, 0x9A] = .ok (.bitZp0 0x9A, []) ∧ decode [0x25, 0x9A] = .ok (.andZp0 0x9A, []) ∧
    decode [0x26, 0x9A] = .ok (.rolZp0 0x9A, []) ∧ decode [0x27, 0x9A] = .ok (.rlaZp0 0x9A, []) ∧
    decode [0x28] = .ok (.plp, []) ∧ decode [0x29, 0x9A] = .ok (.andImm 0x9A, []) ∧
    decode [0x2A] = .ok (.rolImp, []) ∧ decode [0x2B, 0x9A] = .ok (.anc2B 0x9A, []) ∧
    decode [0x2C, 0x34, 0x12] = .ok (.bitAbs 0x1234, []) ∧ decode [0x2D, 0x34, 0x12] = .ok (.andAbs 0x1234, []) ∧
    decode [0x2E, 0x34, 0x12] = .ok (.rolAbs 0x1234, []) ∧ decode [0x2F, 0x34, 0x12] = .ok (.rlaAbs 0x1234, []) :=
  ⟨rfl, rfl, rfl, rfl, rfl, rfl, rfl, rfl, rfl, rfl, rfl, rfl, rfl, rfl, rfl, rfl⟩

theorem test_decode_row3 :
    decode [0x30, 0x9A] = .ok (.bmi 0x9A, []) ∧ decode [0x31, 0x9A] = .ok (.andIzy 0x9A, []) ∧
    decode [0x32] = .ok (.jam32, []) ∧ decode [0x33, 0x9A] = .ok (.rlaIzy 0x9A, []) ∧
    decode [0x34, 0x9A] = .ok (.unop34 0x9A, []) ∧ decode [0x35, 0x9A] = .ok (.andZpx 0x9A, []) ∧
    decode [0x36, 0x9A] = .ok (.rolZpx 0x9A, []) ∧ decode [0x37, 0x9A] = .ok (.rlaZpx 0x9A, []) ∧
    decode [0x38] = .ok (.sec, []) ∧ decode [0x39, 0x34, 0x12] = .ok (.andAby 0x1234, []) ∧
    decode [0x3A] = .ok (.unop3A, []) ∧ decode [0x3B, 0x34, 0x12] = .ok (.rlaAby 0x1234, []) ∧
    decode [0x3C, 0x34, 0x12] = .ok (.unop3C 0x1234, []) ∧ decode [0x3D, 0x34, 0x12] = .ok (.andAbx 0x1234, []) ∧
    decode [0x3E, 0x34, 0x12] = .ok (.rolAbx 0x1234, []) ∧ decode [0x3F, 0x34, 0x12] = .ok (.rlaAbx 0x1234, []) :=
  ⟨rfl, rfl, rfl, rfl, rfl, rfl, rfl, rfl, rfl, rfl, rfl, rfl, rfl, rfl, rfl, rfl⟩

theorem test_decode_row4 :
    decode [0x40] = .ok (.rti, []) ∧ decode [0x41, 0x9A] = .ok (.eorIzx 0x9A, []) ∧
    decode [0x42] = .ok (.jam42, []) ∧ decode [0x43, 0x9A] = .ok (.sreIzx 0x9A, []) ∧
    decode [0x44, 0x9A] = .ok (.unop44 0x9A, []) ∧ decode [0x45, 0x9A] = .ok (.eorZp0 0x9A, []) ∧
    decode [0x46, 0x9A] = .ok (.lsrZp0 0x9A, []) ∧ decode [0x47, 0x9A] = .ok (.sreZp0 0x9A, []) ∧
    decode [0x48] = .ok (.pha, []) ∧ decode [0x49, 0x9A] = .ok (.eorImm 0x9A, []) ∧
    decode [0x4A] = .ok (.lsrImp, []) ∧ decode [0x4B, 0x9A] = .ok (.alr 0x9A, []) ∧
    decode [0x4C, 0x34, 0x12] = .ok (.jmpAbs 0x1234, []) ∧ decode [0x4D, 0x34, 0x12] = .ok (.eorAbs 0x1234, []) ∧
    decode [0x4E, 0x34, 0x12] = .ok (.lsrAbs 0x1234, []) ∧ decode [0x4F, 0x34, 0x12] = .ok (.sreAbs 0x1234, []) :=
  ⟨rfl, rfl, rfl, rfl, rfl, rfl, rfl, rfl, rfl, rfl, rfl, rfl, rfl, rfl, rfl, rfl⟩

theorem test_decode_row5 :
    decode [0x50, 0x9A] = .ok (.bvc 0x9A, []) ∧ decode [0x51, 0x9A] = .ok (.eorIzy 0x9A, []) ∧
    decode [0x52] = .ok (.jam52, []) ∧ decode [0x53, 0x9A] = .ok (.sreIzy 0x9A, []) ∧
    decode [0x54, 0x9A] = .ok (.unop54 0x9A, []) ∧ decode [0x55, 0x9A] = .ok (.eorZpx 0x9A, []) ∧
    decode [0x56, 0x9A] = .ok (.lsrZpx 0x9A, []) ∧ decode [0x57, 0x9A] = .ok (.sreZpx 0x9A, []) ∧
    decode [0x58] = .ok (.cli, []) ∧ decode [0x59, 0x34, 0x12] = .ok (.eorAby 0x1234, []) ∧
    decode [0x5A] = .ok (.unop5A, []) ∧ decode [0x5B, 0x34, 0x12] = .ok (.sreAby 0x1234, []) ∧
    decode [0x5C, 0x34, 0x12] = .ok (.unop5C 0x1234, []) ∧ decode [0x5D, 0x34, 0x12] = .ok (.eorAbx 0x1234, []) ∧
    decode [0x5E, 0x34, 0x12] = .ok (.lsrAbx 0x1234, []) ∧ decode [0x5F, 0x34, 0x12] = .ok (.sreAbx 0x1234, []) :=
  ⟨rfl, rfl, rfl, rfl, rfl, rfl, rfl, rfl, rfl, rfl, rfl, rfl, rfl, rfl, rfl, rfl⟩

theorem test_decode_row6 :
    decode [0x60] = .ok (.rts, []) ∧ decode [0x61, 0x9A] = .ok (.adcIzx 0x9A, []) ∧
    decode [0x62] = .ok (.jam62, []) ∧ decode [0x63, 0x9A] = .ok (.rraIzx 0x9A, []) ∧
    decode [0x64, 0x9A] = .ok (.unop64 0x9A, []) ∧ decode [0x65, 0x9A] = .ok (.adcZp0 0x9A, []) ∧
    decode [0x66, 0x9A] = .ok (.rorZp0 0x9A, []) ∧ decode [0x67, 0x9A] = .ok (.rraZp0 0x9A, []) ∧
    decode [0x68] = .ok (.pla, []) ∧ decode [0x69, 0x9A] = .ok (.adcImm 0x9A, []) ∧
    decode [0x6A] = .ok (.rorImp, []) ∧ decode [0x6B, 0x9A] = .ok (.arr 0x9A, []) ∧
    decode [0x6C, 0x34, 0x12] = .ok (.jmpInd 0x1234, []) ∧ decode [0x6D, 0x34, 0x12] = .ok (.adcAbs 0x1234, []) ∧
    decode [0x6E, 0x34, 0x12] = .ok (.rorAbs 0x1234, []) ∧ decode [0x6F, 0x34, 0x12] = .ok (.rraAbs 0x1234, []) :=
  ⟨rfl, rfl, rfl, rfl, rfl, rfl, rfl, rfl, rfl, rfl, rfl, rfl, rfl, rfl, rfl, rfl⟩

theorem test_decode_row7 :
    decode [0x70, 0x9A] = .ok (.bvs 0x9A, []) ∧ decode [0x71, 0x9A] = .ok (.adcIzy 0x9A, []) ∧
    decode [0x72] = .ok (.jam72, []) ∧ decode [0x73, 0x9A] = .ok (.rraIzy 0x9A, []) ∧
    decode [0x74, 0x9A] = .ok (.unop74 0x9A, []) ∧ decode [0x75, 0x9A] = .ok (.adcZpx 0x9A, []) ∧
    decode [0x76, 0x9A] = .ok (.rorZpx 0x9A, []) ∧ decode [0x77, 0x9A] = .ok (.rraZpx 0x9A, []) ∧
    decode [0x78] = .ok (.sei, []) ∧ decode [0x79, 0x34, 0x12] = .ok (.adcAby 0x1234, []) ∧
    decode [0x7A] = .ok (.unop7A, []) ∧ decode [0x7B, 0x34, 0x12] = .ok (.rraAby 0x1234, []) ∧
    decode [0x7C, 0x34, 0x12] = .ok (.unop7C 0x1234, []) ∧ decode [0x7D, 0x34, 0x12] = .ok (.adcAbx 0x1234, []) ∧
    decode [0x7E, 0x34, 0x12] = .ok (.rorAbx 0x1234, []) ∧ decode [0x7F, 0x34, 0x12] = .ok (.rraAbx 0x1234, []) :=
  ⟨rfl, rfl, rfl, rfl, rfl, rfl, rfl, rfl, rfl, rfl, rfl, rfl, rfl, rfl, rfl, rfl⟩

theorem test_decode_row8 :
    decode [0x80, 0x9A] = .ok (.unop80 0x9A, []) ∧ decode [0x81, 0x9A] = .ok (.staIzx 0x9A, []) ∧
    decode [0x82, 0x9A] = .ok (.unop82 0x9A, []) ∧ decode [0x83, 0x9A] = .ok (.saxIzx 0x9A, []) ∧
    decode [0x84, 0x9A] = .ok (.styZp0 0x9A, []) ∧ decode [0x85, 0x9A] = .ok (.staZp0 0x9A, []) ∧
    decode [0x86, 0x9A] = .ok (.stxZp0 0x9A, []) ∧ decode [0x87, 0x9A] = .ok (.saxZp0 0x9A, []) ∧
    decode [0x88] = .ok (.dey, []) ∧ decode [0x89, 0x9A] = .ok (.unop89 0x9A, []) ∧
    decode [0x8A] = .ok (.txa, []) ∧ decode [0x8B, 0x9A] = .ok (.ane 0x9A, []) ∧
    decode [0x8C, 0x34, 0x12] = .ok (.styAbs 0x1234, []) ∧ decode [0x8D, 0x34, 0x12] = .ok (.staAbs 0x1234, []) ∧
    decode [0x8E, 0x34, 0x12] = .ok (.stxAbs 0x1234, []) ∧ decode [0x8F, 0x34, 0x12] = .ok (.saxAbs 0x1234, []) :=
  ⟨rfl, rfl, rfl, rfl, rfl, rfl, rfl, rfl, rfl, rfl, rfl, rfl, rfl, rfl, rfl, rfl⟩

theorem test_decode_row9 :
    decode [0x90, 0x9A] = .ok (.bcc 0x9A, []) ∧ decode [0x91, 0x9A] = .ok (.staIzy 0x9A, []) ∧
    decode [0x92] = .ok (.jam92, []) ∧ decode [0x93, 0x9A] = .ok (.shaIzy 0x9A, []) ∧
    decode [0x94, 0x9A] = .ok (.styZpx 0x9A, []) ∧ decode [0x95, 0x9A] = .ok (.staZpx 0x9A, []) ∧
    decode [0x96, 0x9A] = .ok (.stxZpy 0x9A, []) ∧ decode [0x97, 0x9A] = .ok (.saxZpy 0x9A, []) ∧
    decode [0x98] = .ok (.tya, []) ∧ decode [0x99, 0x34, 0x12] = .ok (.staAby 0x1234, []) ∧
    decode [0x9A] = .ok (.txs, []) ∧ decode [0x9B, 0x34, 0x12] = .ok (.tas 0x1234, []) ∧
    decode [0x9C, 0x34, 0x12] = .ok (.shy 0x1234, []) ∧ decode [0x9D, 0x34, 0x12] = .ok (.staAbx 0x1234, []) ∧
    decode [0x9E, 0x34, 0x12] = .ok (.shx 0x1234, []) ∧ decode [0x9F, 0x34, 0x12] = .ok (.shaAby 0x1234, []) :=
  ⟨rfl, rfl, rfl, rfl, rfl, rfl, rfl, rfl, rfl, rfl, rfl, rfl, rfl, rfl, rfl, rfl⟩

theorem test_decode_rowA :
    decode [0xA0, 0x9A] = .ok (.ldyImm 0x9A, []) ∧ decode [0xA1, 0x9A] = .ok (.ldaIzx 0x9A, []) ∧
    decode [0xA2, 0x9A] = .ok (.ldxImm 0x9A, []) ∧ decode [0xA3, 0x9A] = .ok (.laxIzx 0x9A, []) ∧
    decode [0xA4, 0x9A] = .ok (.ldyZp0 0x9A, []) ∧ decode [0xA5, 0x9A] = .ok (.ldaZp0 0x9A, []) ∧
    decode [0xA6, 0x9A] = .ok (.ldxZp0 0x9A, []) ∧ decode [0xA7, 0x9A] = .ok (.laxZp0 0x9A, []) ∧
    decode [0xA8] = .ok (.tay, []) ∧ decode [0xA9, 0x9A] = .ok (.ldaImm 0x9A, []) ∧
    decode [0xAA] = .ok (.tax, []) ∧ decode [0xAB, 0x9A] = .ok (.lxa 0x9A, []) ∧
    decode [0xAC, 0x34, 0x12] = .ok (.ldyAbs 0x1234, []) ∧ decode [0xAD, 0x34, 0x12] = .ok (.ldaAbs 0x1234, []) ∧
    decode [0xAE, 0x34, 0x12] = .ok (.ldxAbs 0x1234, []) ∧ decode [0xAF, 0x34, 0x12] = .ok (.laxAbs 0x1234, []) :=
  ⟨rfl, rfl, rfl, rfl, rfl, rfl, rfl, rfl, rfl, rfl, rfl, rfl, rfl, rfl, rfl, rfl⟩

theorem test_decode_rowB :
    decode [0xB0, 0x9A] = .ok (.bcs 0x9A, []) ∧ decode [0xB1, 0x9A] = .ok (.ldaIzy 0x9A, []) ∧
    decode [0xB2] = .ok (.jamB2, []) ∧ decode [0xB3, 0x9A] = .ok (.laxIzy 0x9A, []) ∧
    decode [0xB4, 0x9A] = .ok (.ldyZpx 0x9A, []) ∧ decode [0xB5, 0x9A] = .ok (.ldaZpx 0x9A, []) ∧
    decode [0xB6, 0x9A] = .ok (.ldxZpy 0x9A, []) ∧ decode [0xB7, 0x9A] = .ok (.laxZpy 0x9A, []) ∧
    decode [0xB8] = .ok (.clv, []) ∧ decode [0xB9, 0x34, 0x12] = .ok (.ldaAby 0x1234, []) ∧
    decode [0xBA] = .ok (.tsx, []) ∧ decode [0xBB, 0x34, 0x12] = .ok (.las 0x1234, []) ∧
    decode [0xBC, 0x34, 0x12] = .ok (.ldyAbx 0x1234, []) ∧ decode [0xBD, 0x34, 0x12] = .ok (.ldaAbx 0x1234, []) ∧
    decode [0xBE, 0x34, 0x12] = .ok (.ldxAby 0x1234, []) ∧ decode [0xBF, 0x34, 0x12] = .ok (.laxAby 0x1234, []) :=
  ⟨rfl, rfl, rfl, rfl, rfl, rfl, rfl, rfl, rfl, rfl, rfl, rfl, rfl, rfl, rfl, rfl⟩

theorem test_decode_rowC :
    decode [0xC0, 0x9A] = .ok (.cpyImm 0x9A, []) ∧ decode [0xC1, 0x9A] = .ok (.cmpIzx 0x9A, []) ∧
    decode [0xC2, 0x9A] = .ok (.unopC2 0x9A, []) ∧ decode [0xC3, 0x9A] = .ok (.dcpIzx 0x9A, []) ∧
    decode [0xC4, 0x9A] = .ok (.cpyZp0 0x9A, []) ∧ decode [0xC5, 0x9A] = .ok (.cmpZp0 0x9A, []) ∧
    decode [0xC6, 0x9A] = .ok (.decZp0 0x9A, []) ∧ decode [0xC7, 0x9A] = .ok (.dcpZp0 0x9A, []) ∧
    decode [0xC8] = .ok (.iny, []) ∧ decode [0xC9, 0x9A] = .ok (.cmpImm 0x9A, []) ∧
    decode [0xCA] = .ok (.dex, []) ∧ decode [0xCB, 0x9A] = .ok (.sbx 0x9A, []) ∧
    decode [0xCC, 0x34, 0x12] = .ok (.cpyAbs 0x1234, []) ∧ decode [0xCD, 0x34, 0x12] = .ok (.cmpAbs 0x1234, []) ∧
    decode [0xCE, 0x34, 0x12] = .ok (.decAbs 0x1234, []) ∧ decode [0xCF, 0x34, 0x12] = .ok (.dcpAbs 0x1234, []) :=
  ⟨rfl, rfl, rfl, rfl, rfl, rfl, rfl, rfl, rfl, rfl, rfl, rfl, rfl, rfl, rfl, rfl⟩

theorem test_decode_rowD :
    decode [0xD0, 0x9A] = .ok (.bne 0x9A, []) ∧ decode [0xD1, 0x9A] = .ok (.cmpIzy 0x9A, []) ∧
    decode [0xD2] = .ok (.jamD2, []) ∧ decode [0xD3, 0x9A] = .ok (.dcpIzy 0x9A, []) ∧
    decode [0xD4, 0x9A] = .ok (.unopD4 0x9A, []) ∧ decode [0xD5, 0x9A] = .ok (.cmpZpx 0x9A, []) ∧
    decode [0xD6, 0x9A] = .ok (.decZpx 0x9A, []) ∧ decode [0xD7, 0x9A] = .ok (.dcpZpx 0x9A, []) ∧
    decode [0xD8] = .ok (.cld, []) ∧ decode [0xD9, 0x34, 0x12] = .ok (.cmpAby 0x1234, []) ∧
    decode [0xDA] = .ok (.unopDA, []) ∧ decode [0xDB, 0x34, 0x12] = .ok (.dcpAby 0x1234, []) ∧
    decode [0xDC, 0x34, 0x12] = .ok (.unopDC 0x1234, []) ∧ decode [0xDD, 0x34, 0x12] = .ok (.cmpAbx 0x1234, []) ∧
    decode [0xDE, 0x34, 0x12] = .ok (.decAbx 0x1234, []) ∧ decode [0xDF, 0x34, 0x12] = .ok (.dcpAbx 0x1234, []) :=
  ⟨rfl, rfl, rfl, rfl, rfl, rfl, rfl, rfl, rfl, rfl, rfl, rfl, rfl, rfl, rfl, rfl⟩

theorem test_decode_rowE :
    decode [0xE0, 0x9A] = .ok (.cpxImm 0x9A, []) ∧ decode [0xE1, 0x9A] = .ok (.sbcIzx 0x9A, []) ∧
    decode [0xE2, 0x9A] = .ok (.unopE2 0x9A, []) ∧ decode [0xE3, 0x9A] = .ok (.iscIzx 0x9A, []) ∧
    decode [0xE4, 0x9A] = .ok (.cpxZp0 0x9A, []) ∧ decode [0xE5, 0x9A] = .ok (.sbcZp0 0x9A, []) ∧
    decode [0xE6, 0x9A] = .ok (.incZp0 0x9A, []) ∧ decode [0xE7, 0x9A] = .ok (.iscZp0 0x9A, []) ∧
    decode [0xE8] = .ok (.inx, []) ∧ decode [0xE9, 0x9A] = .ok (.sbcImm 0x9A, []) ∧
    decode [0xEA] = .ok (.nop, []) ∧ decode [0xEB, 0x9A] = .ok (.usbc 0x9A, []) ∧
    decode [0xEC, 0x34, 0x12] = .ok (.cpxAbs 0x1234, []) ∧ decode [0xED, 0x34, 0x12] = .ok (.sbcAbs 0x1234, []) ∧
    decode [0xEE, 0x34, 0x12] = .ok (.incAbs 0x1234, []) ∧ decode [0xEF, 0x34, 0x12] = .ok (.iscAbs 0x1234, []) :=
  ⟨rfl, rfl, rfl, rfl, rfl, rfl, rfl, rfl, rfl, rfl, rfl, rfl, rfl, rfl, rfl, rfl⟩

theorem test_decode_rowF :
    decode [0xF0, 0x9A] = .ok (.beq 0x9A, []) ∧ decode [0xF1, 0x9A] = .ok (.sbcIzy 0x9A, []) ∧
    decode [0xF2] = .ok (.jamF2, []) ∧ decode [0xF3, 0x9A] = .ok (.iscIzy 0x9A, []) ∧
    decode [0xF4, 0x9A] = .ok (.unopF4 0x9A, []) ∧ decode [0xF5, 0x9A] = .ok (.sbcZpx 0x9A, []) ∧
    decode [0xF6, 0x9A] = .ok (.incZpx 0x9A, []) ∧ decode [0xF7, 0x9A] = .ok (.iscZpx 0x9A, []) ∧
    decode [0xF8] = .ok (.sed, []) ∧ decode [0xF9, 0x34, 0x12] = .ok (.sbcAby 0x1234, []) ∧
    decode [0xFA] = .ok (.unopFA, []) ∧ decode [0xFB, 0x34, 0x12] = .ok (.iscAby 0x1234, []) ∧
    decode [0xFC, 0x34, 0x12] = .ok (.unopFC 0x1234, []) ∧ decode [0xFD, 0x34, 0x12] = .ok (.sbcAbx 0x1234, []) ∧
    decode [0xFE, 0x34, 0x12] = .ok (.incAbx 0x1234, []) ∧ decode [0xFF, 0x34, 0x12] = .ok (.iscAbx 0x1234, []) :=
  ⟨rfl, rfl, rfl, rfl, rfl, rfl, rfl, rfl, rfl, rfl, rfl, rfl, rfl, rfl, rfl, rfl⟩

/-! ## Well-formedness: each way a byte string is not one instruction -/

/-- An LDA #imm string must be two bytes: not empty, not truncated, not longer. -/
theorem test_wf_refuses_length : BytesWellFormed .imm 0 [0xA9, 0x05] = true ∧ BytesWellFormed .imm 0 [] = false ∧
    BytesWellFormed .imm 0 [0xA9] = false ∧ BytesWellFormed .imm 0 [0xA9, 0x05, 0x00] = false := by decide

/-- A three-byte form cut short, and BRK without its padding byte, are refused. -/
theorem test_wf_refuses_truncated : BytesWellFormed .abs 0 [0xAD, 0x34] = false ∧
    BytesWellFormed .imp 1 [0x00] = false ∧ BytesWellFormed .imp 1 [0x00, 0x00] = true := by decide

/-- The decoder refuses, by name, an empty string and a string cut short of its operand bytes. -/
theorem test_decode_refuses : decode [] = .error .empty ∧ decode [0xAD, 0x34] = .error (.truncated 0xAD) ∧
    decode [0xA9] = .error (.truncated 0xA9) ∧ decode [0x00] = .error (.truncated 0x00) := ⟨rfl, rfl, rfl, rfl⟩

/-- Encoding gives the bytes of R100's format, BRK's padding byte 0. -/
theorem test_encode : encode (.ldaAbs 0x1234) = [0xAD, 0x34, 0x12] ∧ encode (.jmpInd 0x02FF) = [0x6C, 0xFF, 0x02] ∧
    encode .brk = [0x00, 0x00] ∧ encode (.bne 0xF0) = [0xD0, 0xF0] := ⟨rfl, rfl, rfl, rfl⟩

/-! ## Instructions: one step of `exec` each, from the examples of the rules and 95_test_vectors.md -/

/-- A state after an instruction's bytes were read: A, X, Y, SP, P, PC and RAM as given, no cartridge. -/
def cpuState (a x y sp p : Byte) (pc : Word) (ram : Memory) : State :=
  { State.reset with
    cpu := { State.reset.cpu with a := a, x := x, y := y, sp := sp, p := p, pc := pc, cycles := 0 }, ram := ram }

/-- Some fields of the next state. -/
def got {α : Type} (o : Outcome) (f : State → α) : Option α :=
  match o with
  | .next t => some (f t)
  | _ => none

/-- A, P and the cycle count. -/
def ap (t : State) : Byte × Byte × Nat := (t.cpu.a, t.cpu.p, t.cpu.cycles)

/-- R141's example. -/
theorem test_lda_imm : got (exec (.ldaImm 0x05) (cpuState 0 0 0 0xFD 0x24 0x8002 [])) ap = some (0x05, 0x24, 2) := by
  decide

/-- V30.4: the dummy read of $2002 clears vertical blank and the toggle, so the read of $2102 returns bit 7 = 0. -/
theorem test_lda_abx_dummy_read :
    got (exec (.ldaAbx 0x20FF) { cpuState 0x77 3 0 0xFD 0x24 0x8003 [] with
      ppu := { State.reset.ppu with status := 0x80, w := true } })
      (fun t => (t.cpu.a, t.cpu.cycles, t.ppu.status, t.ppu.w)) = some (0x00, 5, 0x00, false) := by decide

/-- V40.1. -/
theorem test_ldx_zp0 : got (exec (.ldxZp0 0x10) (cpuState 0 0 0 0xFD 0x24 0x8002 [(0x10, 0x80)]))
    (fun t => (t.cpu.x, t.cpu.p, t.cpu.cycles)) = some (0x80, 0xA4, 3) := by decide

/-- R142: ZPY wraps in page zero. -/
theorem test_ldx_zpy_wraps : got (exec (.ldxZpy 0xFF) (cpuState 0 0 1 0xFD 0x24 0x8002 [(0x00, 0x11), (0x100, 0x22)]))
    (fun t => (t.cpu.x, t.cpu.cycles)) = some (0x11, 4) := by decide

/-- V40.2. -/
theorem test_ldy_imm : got (exec (.ldyImm 0x00) (cpuState 0 0 5 0xFD 0x24 0x8002 []))
    (fun t => (t.cpu.y, t.cpu.p)) = some (0x00, 0x26) := by decide

/-- V30.10 and V30.9: the pointer wraps in page zero. -/
theorem test_lda_indirect_wraps :
    got (exec (.ldaIzx 0xFE) (cpuState 0 1 0 0xFD 0x24 0x8002 [(0x00, 0x03), (0x100, 0x07), (0x300, 0x5C)])) ap =
      some (0x5C, 0x24, 6) ∧
    got (exec (.ldaIzy 0xFF) (cpuState 0 0 0 0xFD 0x24 0x8002 [(0x00, 0x03), (0x100, 0x07), (0x300, 0x5C)])) ap =
      some (0x5C, 0x24, 5) := by decide

/-- V30.5. -/
theorem test_sta_abx : got (exec (.staAbx 0x12FF) (cpuState 0x99 1 0 0xFD 0x24 0x8003 []))
    (fun t => (t.cell (.ram 0x300), t.cpu.p, t.cpu.cycles)) = some (0x99, 0x24, 5) := by decide

/-- V40.8 and R145's example. -/
theorem test_stx : got (exec (.stxAbs 0x2000) (cpuState 0x77 5 0 0xFD 0x24 0x8003 []))
      (fun t => (t.ppu.ctrl, t.ppu.t)) = some (0x05, 0x0400) ∧
    got (exec (.stxZpy 0xFF) (cpuState 0 0x12 1 0xFD 0x24 0x8002 [])) (fun t => t.cell (.ram 0)) = some 0x12 := by decide

/-- R146's example. -/
theorem test_sty_abs : got (exec (.styAbs 0x0200) (cpuState 0 0 0x34 0xFD 0x24 0x8003 []))
    (fun t => t.cell (.ram 0x200)) = some 0x34 := by decide

/-- R147's to R152's examples. -/
theorem test_transfers :
    got (exec .tax (cpuState 0x80 0 0 0xFD 0x24 0x8001 [])) (fun t => (t.cpu.x, t.cpu.p)) = some (0x80, 0xA4) ∧
    got (exec .tay (cpuState 0x00 0 7 0xFD 0x24 0x8001 [])) (fun t => (t.cpu.y, t.cpu.p)) = some (0x00, 0x26) ∧
    got (exec .txa (cpuState 0 0x7F 0 0xFD 0xA6 0x8001 [])) (fun t => (t.cpu.a, t.cpu.p)) = some (0x7F, 0x24) ∧
    got (exec .tya (cpuState 0 0 0xFF 0xFD 0x24 0x8001 [])) (fun t => (t.cpu.a, t.cpu.p)) = some (0xFF, 0xA4) ∧
    got (exec .tsx (cpuState 0 0 0 0xFD 0x24 0x8001 [])) (fun t => (t.cpu.x, t.cpu.p)) = some (0xFD, 0xA4) ∧
    got (exec .txs (cpuState 0 0xFF 0 0xFD 0x24 0x8001 [])) (fun t => (t.cpu.sp, t.cpu.p)) = some (0xFF, 0x24) := by
  decide

/-- V41's second row, and R240's example: decimal mode changes nothing. -/
theorem test_adc : got (exec (.adcImm 0x50) (cpuState 0x50 0 0 0xFD 0x24 0x8002 [])) ap = some (0xA0, 0xE4, 2) ∧
    got (exec (.adcImm 0x01) (cpuState 0x09 0 0 0xFD 0x2C 0x8002 [])) ap = some (0x0A, 0x2C, 2) := by decide

/-- V41: the overflow and carry of $50 - $B0 and $D0 - $70 with C = 1. -/
theorem test_sbc : got (exec (.sbcImm 0xB0) (cpuState 0x50 0 0 0xFD 0x25 0x8002 [])) ap = some (0xA0, 0xE4, 2) ∧
    got (exec (.sbcImm 0x70) (cpuState 0xD0 0 0 0xFD 0x25 0x8002 [])) ap = some (0x60, 0x65, 2) := by decide

/-- R173's to R175's examples. -/
theorem test_logic : got (exec (.andImm 0x3C) (cpuState 0xF0 0 0 0xFD 0x24 0x8002 [])) ap = some (0x30, 0x24, 2) ∧
    got (exec (.oraImm 0x80) (cpuState 0x0F 0 0 0xFD 0x24 0x8002 [])) ap = some (0x8F, 0xA4, 2) ∧
    got (exec (.eorImm 0x0F) (cpuState 0xFF 0 0 0xFD 0x24 0x8002 [])) ap = some (0xF0, 0xA4, 2) := by decide

/-- V30.7 and V41.6. -/
theorem test_inc :
    got (exec (.incAbx 0x0300) (cpuState 0 1 0 0xFD 0x24 0x8003 [(0x301, 0x41)]))
      (fun t => (t.cell (.ram 0x301), t.cpu.p, t.cpu.cycles)) = some (0x42, 0x24, 7) ∧
    got (exec (.incZp0 0x10) (cpuState 0 0 0 0xFD 0x25 0x8002 [(0x10, 0xFF)]))
      (fun t => (t.cell (.ram 0x10), t.cpu.p, t.cpu.cycles)) = some (0x00, 0x27, 5) := by decide

/-- R177's example. -/
theorem test_dec : got (exec (.decZp0 0x10) (cpuState 0 0 0 0xFD 0x24 0x8002 [(0x10, 0x01)]))
    (fun t => (t.cell (.ram 0x10), t.cpu.p)) = some (0x00, 0x26) := by decide

/-- R178's to R181's examples. -/
theorem test_index_inc_dec :
    got (exec .inx (cpuState 0 0xFF 0 0xFD 0x25 0x8001 [])) (fun t => (t.cpu.x, t.cpu.p)) = some (0x00, 0x27) ∧
    got (exec .iny (cpuState 0 0 0x7F 0xFD 0x24 0x8001 [])) (fun t => (t.cpu.y, t.cpu.p)) = some (0x80, 0xA4) ∧
    got (exec .dex (cpuState 0 1 0 0xFD 0x24 0x8001 [])) (fun t => (t.cpu.x, t.cpu.p)) = some (0x00, 0x26) ∧
    got (exec .dey (cpuState 0 0 0 0xFD 0x24 0x8001 [])) (fun t => (t.cpu.y, t.cpu.p)) = some (0xFF, 0xA4) := by decide

/-- R182's example and V41.4. -/
theorem test_asl : got (exec .aslImp (cpuState 0x41 0 0 0xFD 0x24 0x8001 [])) ap = some (0x82, 0xA4, 2) ∧
    got (exec .aslImp (cpuState 0x80 0 0 0xFD 0x24 0x8001 [])) ap = some (0x00, 0x27, 2) := by decide

/-- R183's example. -/
theorem test_lsr : got (exec .lsrImp (cpuState 0x03 0 0 0xFD 0xA4 0x8001 [])) ap = some (0x01, 0x25, 2) := by decide

/-- R184's example. -/
theorem test_rol : got (exec .rolImp (cpuState 0x80 0 0 0xFD 0x25 0x8001 [])) ap = some (0x01, 0x25, 2) := by decide

/-- V41.5. -/
theorem test_ror : got (exec (.rorZp0 0x10) (cpuState 0 0 0 0xFD 0x25 0x8002 [(0x10, 0x01)]))
    (fun t => (t.cell (.ram 0x10), t.cpu.p, t.cpu.cycles)) = some (0x80, 0xA5, 5) := by decide

/-- V41.7 and R186's example. -/
theorem test_bit : got (exec (.bitZp0 0x10) (cpuState 0x3F 0 0 0xFD 0x24 0x8002 [(0x10, 0x40)])) ap =
      some (0x3F, 0x66, 3) ∧
    got (exec (.bitZp0 0x10) (cpuState 0x01 0 0 0xFD 0x24 0x8002 [(0x10, 0xC0)])) ap = some (0x01, 0xE6, 3) := by decide

/-- V42.1 and V42.3. -/
theorem test_cmp : got (exec (.cmpImm 0x41) (cpuState 0x40 0 0 0xFD 0x24 0x8002 [])) ap = some (0x40, 0xA4, 2) ∧
    got (exec (.cmpImm 0x01) (cpuState 0x80 0 0 0xFD 0x24 0x8002 [])) ap = some (0x80, 0x25, 2) := by decide

/-- V42.4 and V42.5. -/
theorem test_cpx_cpy : got (exec (.cpxImm 0xFF) (cpuState 0 0 0 0xFD 0x25 0x8002 [])) ap = some (0, 0x24, 2) ∧
    got (exec (.cpyImm 0x00) (cpuState 0 0 0xFF 0xFD 0x24 0x8002 [])) ap = some (0, 0xA5, 2) := by decide

/-- PC and the cycle count. -/
def pcc (t : State) : Word × Nat := (t.cpu.pc, t.cpu.cycles)

/-- V43.4, V43.3, V43.5 and V43.6, and R211's, R212's, R214's, R215's and R217's examples. -/
theorem test_branches :
    got (exec (.bcc 0xFC) (cpuState 0 0 0 0xFD 0x24 0x8102 [])) pcc = some (0x80FE, 4) ∧
    got (exec (.bcc 0x04) (cpuState 0 0 0 0xFD 0x24 0x8002 [])) pcc = some (0x8006, 3) ∧
    got (exec (.bcs 0x04) (cpuState 0 0 0 0xFD 0x24 0x8002 [])) pcc = some (0x8002, 2) ∧
    got (exec (.beq 0x01) (cpuState 0 0 0 0xFD 0x26 0x80FF [])) pcc = some (0x8100, 4) ∧
    got (exec (.bne 0xF0) (cpuState 0 0 0 0xFD 0x24 0x8012 [])) pcc = some (0x8002, 3) ∧
    got (exec (.bmi 0xFE) (cpuState 0 0 0 0xFD 0xA4 0x8002 [])) pcc = some (0x8000, 3) ∧
    got (exec (.bpl 0x20) (cpuState 0 0 0 0xFD 0x24 0xFFF2 [])) pcc = some (0x0012, 4) ∧
    got (exec (.bvc 0x00) (cpuState 0 0 0 0xFD 0x24 0x8002 [])) pcc = some (0x8002, 3) ∧
    got (exec (.bvs 0xFE) (cpuState 0 0 0 0xFD 0x64 0x8002 [])) pcc = some (0x8000, 3) := by decide

/-- V44.3 and V44.1. -/
theorem test_pushes :
    got (exec .pha (cpuState 0x42 0 0 0x00 0x24 0x8001 [])) (fun t => (t.cell (.ram 0x100), t.cpu.sp)) =
      some (0x42, 0xFF) ∧
    got (exec .php (cpuState 0 0 0 0xFD 0xE7 0x8001 []))
      (fun t => (t.cell (.ram 0x1FD), t.cpu.sp, t.cpu.p)) = some (0xF7, 0xFC, 0xE7) := by decide

/-- R228's example, V44.2 and R229's example. -/
theorem test_pulls :
    got (exec .pla (cpuState 0x55 0 0 0xFC 0x24 0x8001 [])) (fun t => (t.cpu.a, t.cpu.p, t.cpu.sp)) =
      some (0x00, 0x26, 0xFD) ∧
    got (exec .plp (cpuState 0 0 0 0xFC 0x24 0x8001 [(0x1FD, 0x10)])) (fun t => (t.cpu.p, t.cpu.sp)) =
      some (0x20, 0xFD) ∧
    got (exec .plp (cpuState 0 0 0 0xFC 0x24 0x8001 [(0x1FD, 0xFF)])) (fun t => (t.cpu.p, t.cpu.iWindow)) =
      some (0xEF, none) := by decide

/-- P and the latency window. -/
def pw (t : State) : Byte × Option Bool := (t.cpu.p, t.cpu.iWindow)

/-- R235's to R241's examples. -/
theorem test_flags :
    got (exec .clc (cpuState 0 0 0 0xFD 0xE7 0x8001 [])) pw = some (0xE6, none) ∧
    got (exec .sec (cpuState 0 0 0 0xFD 0x24 0x8001 [])) pw = some (0x25, none) ∧
    got (exec .cli (cpuState 0 0 0 0xFD 0x24 0x8001 [])) pw = some (0x20, some true) ∧
    got (exec .sei (cpuState 0 0 0 0xFD 0x20 0x8001 [])) pw = some (0x24, some false) ∧
    got (exec .cld (cpuState 0 0 0 0xFD 0x2C 0x8001 [])) pw = some (0x24, none) ∧
    got (exec .sed (cpuState 0 0 0 0xFD 0x24 0x8001 [])) pw = some (0x2C, none) ∧
    got (exec .clv (cpuState 0 0 0 0xFD 0x64 0x8001 [])) pw = some (0x24, none) := by decide

/-- R250's example and S3. -/
theorem test_jmp : got (exec (.jmpAbs 0x8000) (cpuState 0 0 0 0xFD 0x24 0x9003 [])) pcc = some (0x8000, 3) ∧
    got (exec (.jmpInd 0x02FF) (cpuState 0 0 0 0xFD 0x24 0x9003 [(0x200, 0x12), (0x2FF, 0x34), (0x300, 0x56)])) pcc =
      some (0x1234, 5) := by decide

/-- R251's example. -/
theorem test_jsr : got (exec (.jsr 0x9000) (cpuState 0 0 0 0xFD 0x24 0x8003 []))
    (fun t => (t.cell (.ram 0x1FD), t.cell (.ram 0x1FC), t.cpu.sp, t.cpu.pc)) = some (0x80, 0x02, 0xFB, 0x9000) := by
  decide

/-- R252's example. -/
theorem test_rts : got (exec .rts (cpuState 0 0 0 0xFB 0x24 0x9001 [(0x1FC, 0x02), (0x1FD, 0x80)]))
    (fun t => (t.cpu.pc, t.cpu.sp, t.cpu.cycles)) = some (0x8003, 0xFD, 6) := by decide

/-- R253's example. -/
theorem test_rti : got (exec .rti (cpuState 0 0 0 0xFA 0x24 0x9001 [(0x1FB, 0xA3), (0x1FC, 0x34), (0x1FD, 0x12)]))
    (fun t => (t.cpu.pc, t.cpu.sp, t.cpu.p, t.cpu.cycles)) = some (0x1234, 0xFD, 0xA3, 6) := by decide

/-- A cartridge of two 16 KB PRG banks and two 8 KB CHR banks with a few bytes set: the vectors $FFFA, $FFFC and $FFFE read
$A000, $8000 and $9000; $8000 reads $FF; CHR byte $2000 is $66, CHR byte 0 is $55. -/
def cartOf (m : Mapper) : Cartridge where
  prgRom := [(0x0000, 0xFF), (0x7FFB, 0xA0), (0x7FFD, 0x80), (0x7FFF, 0x90)]
  chr := [(0x0000, 0x55), (0x2000, 0x66)]
  chrIsRam := false
  nPrg := 2
  nChr := 2
  headerMirroring := .horizontal
  prgRam := []
  mapper := m

/-- R254's example. -/
theorem test_brk :
    got (exec .brk { cpuState 0 0 0 0xFD 0x24 0x8001 [] with cart := some (cartOf .m000) })
      (fun t => ((t.cell (.ram 0x1FD), t.cell (.ram 0x1FC), t.cell (.ram 0x1FB)), (t.cpu.sp, t.cpu.p, t.cpu.pc),
        t.cpu.cycles)) = some ((0x80, 0x02, 0x34), (0xFA, 0x24, 0x9000), 7) := by decide

/-- R265's example, but for the fetch's part. -/
theorem test_nop : exec .nop (cpuState 1 2 3 4 0x24 0x8001 []) =
    .next { cpuState 1 2 3 4 0x24 0x8001 [] with
      cpu := { (cpuState 1 2 3 4 0x24 0x8001 []).cpu with cycles := 2 } } := rfl

/-- R267's second example, with the dummy read going to $2002 so that it shows. -/
theorem test_unofficial_nop :
    got (exec (.unop1C 0x20FF) { cpuState 9 3 0 0xFD 0x24 0x8003 [] with
      ppu := { State.reset.ppu with status := 0x80 } })
      (fun t => (t.cpu.a, t.cpu.x, t.cpu.p, t.cpu.pc, t.cpu.cycles, t.ppu.status)) =
        some (9, 3, 0x24, 0x8003, 5, 0x00) := by decide

/-- R266: the refusal names the opcode and the address it was fetched from. -/
theorem test_unofficial_refused :
    exec (.sloAbs 0x1234) { cpuState 0 0 0 0xFD 0x24 0x8003 [] with cfg := { unofficialPolicy := .refuse } } =
      .refused (.unofficialOpcode 0x0F 0x8000) := rfl

/-! ## Fetch and step -/

/-- P1's first instruction at $0000, as `withFetchWord` places it: the step reads it, runs it and counts one cycle. -/
theorem test_step_runs_fetched :
    got (step (State.reset.withFetchWord 16 0x05A9)) (fun t => (t.cpu.a, t.cpu.pc, t.cpu.p, t.cpu.cycles, t.sysclk)) =
      some (0x05, 0x0002, 0x24, 1, 1) := by decide

/-- The table's bit numbering: the first byte is the opcode, the second bits 15 to 8. -/
theorem test_decode_table_word : decodeTableWord 24 0x1234AD = some (.ldaAbs 0x1234) ∧
    decodeTableWord 8 0x00 = some .brk ∧ decodeTableWord 8 0x4C = some (.jmpAbs 0) := by decide

/-! ## Devices, from the vectors of 95_test_vectors.md -/

/-- A state with a PPU as given and horizontal mirroring. -/
def ppuState (p : Ppu) : State := { State.reset with ppu := p }

/-- V61.1 to V61.3. -/
theorem test_ppu_scroll_and_addr :
    (busWrite 0x2000 0x03 State.reset).ppu.t = 0x0C00 ∧
    (let t := busWrite 0x2005 0x5E (busWrite 0x2005 0x7D (ppuState { State.reset.ppu with t := 0x0C00 }));
      (t.ppu.fineX, t.ppu.t, t.ppu.w) = (5, 0x6D6F, false)) ∧
    (let t := busWrite 0x2006 0x08 (busWrite 0x2006 0x21 (ppuState { State.reset.ppu with t := 0x6D6F }));
      (t.ppu.t, t.ppu.v, t.ppu.w) = (0x2108, 0x2108, false)) := by decide

/-- V61.4 and V61.5. -/
theorem test_ppu_reads :
    (let r := busRead 0x2002 (ppuState { State.reset.ppu with w := true, status := 0xC0, readBuffer := 0x1F });
      (r.1, r.2.ppu.status, r.2.ppu.w) = (0xDF, 0x40, false)) ∧
    (let r := busRead 0x2007 (ppuState { State.reset.ppu with v := 0x2108, nametable := [(0x108, 0xAA), (0x109, 0xBB)] });
      let q := busRead 0x2007 r.2;
      (r.1, q.1, q.2.ppu.readBuffer, q.2.ppu.v) = (0x00, 0xAA, 0xBB, 0x210A)) := by decide

/-- V61.6 to V61.10. -/
theorem test_palette_and_oam :
    (let r := busRead 0x2007 (ppuState { State.reset.ppu with v := 0x3F00, palette := [(0, 0x0F)] });
      (r.1, r.2.ppu.readBuffer, r.2.ppu.v) = (0x0F, 0x0F, 0x3F01)) ∧
    (busRead 0x2007 { busWrite 0x2007 0x2C (ppuState { State.reset.ppu with v := 0x3F10 }) with
      ppu := { (busWrite 0x2007 0x2C (ppuState { State.reset.ppu with v := 0x3F10 })).ppu with v := 0x3F00 } }).1 = 0x2C ∧
    ppuRead none { State.reset.ppu with mask := 0x01, palette := [(5, 0x2C)] } 0x3F05 = 0x20 ∧
    (let t := busWrite 0x2007 0x55 (ppuState { State.reset.ppu with ctrl := 0x04, v := 0x2000 });
      (Store.read t.ppu.nametable 0, t.ppu.v) = (0x55, 0x2020)) ∧
    (let t := busWrite 0x2004 0x11 (ppuState { State.reset.ppu with oamaddr := 0xFF });
      (t.cell (.oam 0xFF), t.ppu.oamaddr) = (0x11, 0x00)) := by decide

/-- V61.11 and V61.12. -/
theorem test_mirroring :
    [0x2000, 0x2400, 0x2800, 0x2C00].map (ntIndex .vertical) = [false, true, false, true] ∧
    [0x2000, 0x2400, 0x2800, 0x2C00].map (ntIndex .horizontal) = [false, false, true, true] := by decide

/-- V62.1 to V62.3. -/
theorem test_apu_length :
    (let t := busWrite 0x4003 0x08 (busWrite 0x4015 0x01 State.reset);
      (t.apu.pulse1.length, (busRead 0x4015 t).1, (busWrite 0x4015 0x00 t).apu.pulse1.length) = (254, 0x01, 0)) ∧
    (busWrite 0x4003 0x08 State.reset).apu.pulse1.length = 0 := by decide

/-- V62.8 to V62.12: the sweep's target and mute. -/
theorem test_sweep :
    ({ Pulse.reset with timer := 0x100, swShift := 1, swNeg := true } : Pulse).target true = 0x7F ∧
    ({ Pulse.reset with timer := 0x100, swShift := 1, swNeg := true } : Pulse).target false = 0x80 ∧
    ({ Pulse.reset with timer := 0x600, swShift := 1 } : Pulse).sweepMute {} true = true ∧
    ({ Pulse.reset with timer := 0x007 } : Pulse).sweepMute {} true = false ∧
    ({ Pulse.reset with timer := 0x007 } : Pulse).sweepMute { sweepLowMuteOperand := .period } true = true ∧
    ({ Pulse.reset with timer := 1, swShift := 1, swNeg := true } : Pulse).target true = 0 ∧
    ({ Pulse.reset with timer := 1, swShift := 1, swNeg := true } : Pulse).target false = 1 := by decide

/-- V62.13, V62.14 and V62.16 to V62.21. -/
theorem test_noise_and_dmc :
    lfsrStep false 0x0001 = 0x4000 ∧ lfsrStep false 0x4000 = 0x2000 ∧ lfsrStep true 0x0041 = 0x0020 ∧
    ({ Dmc.reset with silence := false, level := 126, shift := 1 } : Dmc).clockOutput.level = 126 ∧
    ({ Dmc.reset with silence := false, level := 1 } : Dmc).clockOutput.level = 1 ∧
    ({ Dmc.reset with silence := false, level := 125, shift := 1 } : Dmc).clockOutput.level = 127 ∧
    ({ Dmc.reset with curAddr := 0xFFFF, bytesRemaining := 2 } : Dmc).fill 7 =
      { Dmc.reset with curAddr := 0x8000, bytesRemaining := 1, buffer := 7, bufferEmpty := false } ∧
    (({ Dmc.reset with bytesRemaining := 1, irqEn := true } : Dmc).fill 7).irq = true ∧
    (let t := busWrite 0x4015 0x10 (busWrite 0x4013 0x01 (busWrite 0x4012 0x00 State.reset));
      (t.apu.dmc.curAddr, t.apu.dmc.bytesRemaining) = (0xC000, 17)) := by decide

/-- V62.6 and V62.7. -/
theorem test_frame_counter_write :
    (let t := busWrite 0x4017 0x40 { State.reset with apu := { Apu.reset with frameIrq := true } };
      (t.apu.frameIrq, t.apu.irqInhibit) = (false, true)) ∧
    (let t := busWrite 0x4017 0x80 { State.reset with
        apu := { Apu.reset with fsCount := 5000, pulse1 := { Pulse.reset with length := 10 } } };
      (t.apu.fsCount, t.apu.fsMode, t.apu.pulse1.length) = (0, true, 9)) := by decide

/-- A run of reads of $4016: their values. -/
def padReads : Nat → State → List Byte
  | 0, _ => []
  | n + 1, s => (busRead 0x4016 s).1 :: padReads n (busRead 0x4016 s).2

/-- V60.10. -/
theorem test_controller :
    padReads 9 (busWrite 0x4016 0x00 (busWrite 0x4016 0x01 (setButtons false 0x81 State.reset))) =
      [1, 0, 0, 0, 0, 0, 0, 1, 0] := by decide

/-- V63.7, V63.13 and V63.14. -/
theorem test_mapper_000_and_002 :
    ({ cartOf .m000 with nPrg := 1 } : Cartridge).prgOffset 0xC005 = 5 ∧
    ({ cartOf (Mapper.write (.m002 0) 0x8000 0x0A) with nPrg := 8 } : Cartridge).prgOffset 0x8000 = 2 * 16384 ∧
    ({ cartOf (Mapper.write (.m002 0) 0x8000 0x0A) with nPrg := 8 } : Cartridge).prgOffset 0xC000 = 7 * 16384 ∧
    (busWrite 0x8000 0x05 { State.reset with cart := some (cartOf (.m002 0)) }).busConflicts = 1 := by decide

/-- V63.8 to V63.12, the five writes one after the other. -/
theorem test_mapper_001 :
    ({ cartOf (.reset .m001) with nPrg := 8 } : Cartridge).prgOffset 0xC000 = 7 * 16384 ∧
    (let w := fun (d : Byte) (m : Mmc1) => m.write 0xA000 d;
      (w 0 (w 0 (w 0 (w 1 (w 1 ⟨0, 0, 0x0C, 0, 0, 0, false⟩))))).chr0 = 3) ∧
    (let w := fun (d : Byte) (m : Mmc1) => m.write 0xE000 d;
      w 0x80 (w 1 (w 1 (w 1 (w 1 ⟨0, 0, 0x03, 0, 0, 0, false⟩)))) = ⟨0, 0, 0x0F, 0, 0, 0, false⟩) ∧
    ({ cartOf (.m001 ⟨0, 0, 0x10, 2, 5, 0, true⟩) with nChr := 4 } : Cartridge).chrOffset 0x1003 = 0x5003 ∧
    (cartOf (.m001 ⟨0, 0, 0x03, 0, 0, 0, true⟩)).mirroring = .horizontal := by decide

/-- V63.15 to V63.20 and V63.22. -/
theorem test_mapper_003_and_004 :
    (cartOf (Mapper.write (.m003 0) 0x8000 0x03)).chrOffset 0x0000 = 0x2000 ∧
    (let m := Mapper.write (Mapper.write (.reset .m004) 0x8000 0x06) 0x8001 0x04;
      let n := Mapper.write m 0x8000 0x46;
      let off := fun (m : Mapper) (a : Word) => ({ cartOf m with nPrg := 16 } : Cartridge).prgOffset a / 8192;
      (off m 0x8000, off n 0x8000, off n 0xC000) = (4, 30, 4)) ∧
    (cartOf (.m004 ⟨0x80, [0, 0, 9, 0, 0, 0, 0, 0], 0, 0, false, false, false, false, .vertical⟩)).chrOffset 0x0000 =
      0x2400 ∧
    (let r : Mmc3 := ⟨0, [], 0, 0, false, true, false, false, .vertical⟩;
      (r.scanline.irq, (r.scanline.write 0xE000 0).irq, (r.scanline.write 0xE000 0).irqEnable) = (true, false, false)) ∧
    (cartOf (.reset .m004)).mirroring = .horizontal ∧
    (cartOf (Mapper.write (.reset .m004) 0xA000 0x00)).mirroring = .vertical := by decide

/-- V63.1 to V63.4: the header. -/
theorem test_header :
    parseHeader [0x4E, 0x45, 0x53, 0x1A, 2, 1, 0x41, 0, 0, 0, 0, 0, 0, 0, 0, 0] =
      .ok ⟨2, 1, .vertical, false, .m004⟩ ∧
    parseHeader [0x4E, 0x45, 0x53, 0x1A, 2, 1, 0x41, 8, 0, 0, 0, 0, 0, 0, 0, 0] = .error .extendedHeader ∧
    parseHeader [0x4E, 0x45, 0x53, 0x1A, 2, 1, 0x50, 0, 0, 0, 0, 0, 0, 0, 0, 0] = .error .unknownMapper ∧
    parseHeader [0x4E, 0x45, 0x53, 0x00, 2, 1, 0x41, 0, 0, 0, 0, 0, 0, 0, 0, 0] = .error .badMagic := ⟨rfl, rfl, rfl, rfl⟩

/-! ## Witnesses: for every obligation with hypotheses, a state and operands that meet them, and what it then says there -/

/-- A state at a boundary of a CPU tick, with a cartridge. -/
def boundaryState (p : Byte) (m : Mapper) : State :=
  { cpuState 0x11 0x22 0x33 0xFD p 0x8000 [] with cart := some (cartOf m) }

theorem witness_EncodeDecodeRoundTrip : decode [0x00, 0x77, 0xEA] = .ok (.brk, [0xEA]) ∧
    decode [0xAD, 0x34, 0x12, 0xEA] = .ok (.ldaAbs 0x1234, [0xEA]) := ⟨rfl, rfl⟩

theorem witness_OpcodeAloneFixesLength : decode (0xAD :: [0x34, 0x12]) = .ok (.ldaAbs 0x1234, []) ∧
    decode (0xAD :: [0x34]) = .error (.truncated 0xAD) ∧ decode (0xEA :: []) = .ok (.nop, []) := ⟨rfl, rfl, rfl⟩

theorem witness_StepRunsDecodedInstruction :
    let s := State.reset.withFetchWord 16 0x05A9
    s.FetchesNext ∧
      (readBytes (if Instr.ldaImm 0x05 = .brk then 1 else (Instr.ldaImm 0x05).byteLength) (s.setIWindow none)).1 =
        [0xA9, 0x05] ∧
      ([] : List Byte).length = (if Instr.ldaImm 0x05 = .brk then 1 else 0) ∧ (Instr.ldaImm 0x05).byteLength = 2 := by
  decide

theorem witness_StepRunsDecodedInstruction_brk :
    let s := State.reset.withFetchWord 8 0x00
    s.FetchesNext ∧ (readBytes (if Instr.brk = .brk then 1 else Instr.brk.byteLength) (s.setIWindow none)).1 = [0x00] ∧
      ([0x77] : List Byte).length = (if Instr.brk = .brk then 1 else 0) := by decide

theorem witness_StepRunsDecodedInstruction_decode : decode ([0xA9, 0x05] ++ []) = .ok (.ldaImm 0x05, []) ∧
    decode ([0x00] ++ [0x77]) = .ok (.brk, []) := ⟨rfl, rfl⟩

theorem witness_NoStepStopsUnderNopPolicy : State.reset.cfg.unofficialPolicy = .nop := rfl

theorem witness_CpuWaits_other_tick : ({ State.reset with sysclk := 1 } : State).sysclk % 3 ≠ 0 ∧
    got (step { State.reset with sysclk := 1 }) (fun t => (t.sysclk, t.cpu.cycles)) = some (2, 8) := by decide

theorem witness_CpuWaits_execute : State.reset.sysclk % 3 = 0 ∧ State.reset.cpu.dmaActive = false ∧
    State.reset.cpu.dmcFetchPending = false ∧ State.reset.cpu.cycles ≠ 0 ∧
    got (step State.reset) (fun t => (t.sysclk, t.cpu.cycles)) = some (1, 7) := by decide

theorem witness_StepKeepsRomAndConfig : (∃ t, step State.reset = .next t) ∧
    ∃ t, step (boundaryState 0x24 (.m002 3)) = .next t := ⟨⟨_, rfl⟩, ⟨_, rfl⟩⟩

/-- An OAM DMA in progress, from page 2 with OAMADDR $10. -/
def dmaState (sysclk : Nat) (wait : Bool) (index : Byte) : State :=
  { State.reset with
    sysclk := sysclk, ram := [(0x200, 0xAA)], ppu := { State.reset.ppu with oamaddr := 0x10 }
    cpu := { State.reset.cpu with
      dmaActive := true, dmaWait := wait, dmaPage := 2, dmaIndex := index, dmaData := 0xAA } }

/-- V60.8's destination, and the alignment, the read and the end of the transfer. -/
theorem witness_OamDma :
    got (cpuClock (dmaState 3 true 0)) (fun t => t.cpu.dmaWait) = some false ∧
    got (cpuClock (dmaState 6 true 0)) (fun t => t.cpu.dmaWait) = some true ∧
    got (cpuClock (dmaState 6 false 0)) (fun t => (t.cpu.dmaData, t.cpu.dmaActive)) = some (0xAA, true) ∧
    got (cpuClock (dmaState 9 false 0)) (fun t => (t.cell (.oam 0x10), t.cpu.dmaIndex, t.cpu.dmaActive)) =
      some (0xAA, 1, true) ∧
    got (cpuClock (dmaState 9 false 0xFF)) (fun t => (t.cell (.oam 0x0F), t.cpu.dmaIndex, t.cpu.dmaActive)) =
      some (0xAA, 0, false) := by decide

/-- A DMC fetch in progress. -/
def dmcState (stall : Nat) : State :=
  { boundaryState 0x24 .m000 with
    cpu := { State.reset.cpu with dmcFetchPending := true, dmcStall := stall, dmcFetchAddr := 0x8000 }
    apu := { Apu.reset with dmc := { Dmc.reset with bytesRemaining := 2 } } }

theorem witness_DmcFetchStallsFourTicks :
    (dmcState 0).sysclk % 3 = 0 ∧ (dmcState 0).cpu.dmaActive = false ∧ (dmcState 0).cpu.dmcFetchPending = true ∧
    got (cpuClock (dmcState 0)) (fun t => (t.cpu.dmcStall, t.cpu.dmcFetchPending)) = some (3, true) ∧
    got (cpuClock (dmcState 1)) (fun t => (t.cpu.dmcStall, t.cpu.dmcFetchPending, t.apu.dmc.buffer)) =
      some (0, false, 0xFF) := by decide

/-- S5: with an NMI pending and the IRQ line asserted, the NMI is taken. -/
theorem witness_NmiTakenFirst :
    let s := { boundaryState 0x20 .m000 with
      cpu := { (boundaryState 0x20 .m000).cpu with nmiPending := true }, apu := { Apu.reset with frameIrq := true } }
    s.StatusOk ∧ s.AtBoundary ∧ s.cpu.nmiPending = true ∧
      got (cpuClock s) (fun t => (t.cpu.pc, t.cpu.sp, t.cpu.nmiPending, t.cpu.cycles)) = some (0xA000, 0xFA, false, 6) := by
  decide

/-- A boundary with the frame IRQ asserted. -/
def irqState (p : Byte) (window : Option Bool) : State :=
  { boundaryState p .m000 with
    cpu := { (boundaryState p .m000).cpu with iWindow := window }, apu := { Apu.reset with frameIrq := true } }

/-- R302: I clear takes the IRQ; I set masks it; in a latency window the old I decides (S4). -/
theorem witness_IrqTakenUnlessMasked :
    (irqState 0x20 none).StatusOk ∧ (irqState 0x20 none).AtBoundary ∧ (irqState 0x20 none).cpu.nmiPending = false ∧
    got (cpuClock (irqState 0x20 none)) (fun t => (t.cpu.pc, t.cpu.p, t.cpu.cycles)) = some (0x9000, 0x24, 6) ∧
    got (cpuClock (irqState 0x24 none)) (fun t => t.cpu.pc) = some 0x8003 ∧
    got (cpuClock (irqState 0x20 (some true))) (fun t => (t.cpu.pc, t.cpu.iWindow)) = some (0x8003, none) ∧
    got (cpuClock (irqState 0x24 (some false))) (fun t => (t.cpu.pc, t.cpu.iWindow)) = some (0x9000, none) := by decide

theorem witness_RtiUndoesEntry :
    let s := { boundaryState 0xE7 .m000 with cpu := { (boundaryState 0x20 .m000).cpu with sp := 0x01, p := 0xE7 } }
    s.StatusOk ∧ (0x6000 : Word) ≤ 0xFFFE ∧ (0xFFFE : Word) < 0xFFFF ∧
      got (exec .rti (takeException 0xFFFE true s)) (fun t => (t.cpu.pc, t.cpu.sp, t.cpu.p, t.cpu.a)) =
        some (0x8000, 0x01, 0xE7, 0x11) := by decide

theorem witness_LatencyWindows :
    got (exec .sei (boundaryState 0x20 .m000)) (fun t => t.cpu.iWindow) = some (some false) ∧
    got (exec .plp { boundaryState 0x24 .m000 with cfg := { plpILatency := true } }) (fun t => t.cpu.iWindow) =
      some (some true) ∧
    got (exec .nop (irqState 0x24 (some false))) (fun t => t.cpu.iWindow) = some (some false) := by decide

theorem witness_StatusKeptByStep : State.reset.StatusOk ∧
    got (step (irqState 0x20 none)) (fun t => decide t.StatusOk) = some true := by decide

theorem witness_MemoryKeptByStep : (boundaryState 0x24 (.m002 3)).MemoryOk ∧
    ∃ t, step (boundaryState 0x24 (.m002 3)) = .next t := by
  refine ⟨⟨by decide, by decide, ?_⟩, ⟨_, rfl⟩⟩
  rintro c ⟨⟩
  decide

theorem witness_RangesKeptByStep : (boundaryState 0x24 (.reset .m004)).RangesOk ∧
    ∃ t, step (boundaryState 0x24 (.reset .m004)) = .next t := by
  refine ⟨⟨by decide, by decide, by decide, ?_⟩, ⟨_, rfl⟩⟩
  rintro c ⟨⟩
  decide

theorem witness_UnofficialNoOp : State.reset.cfg.unofficialPolicy = .nop ∧
    got (exec (.laxAby 0x12FF) { cpuState 1 2 3 0xFD 0x24 0x8003 [] with cfg := {} })
      (fun t => (t.cpu.a, t.cpu.x, t.cpu.cycles)) = some (1, 2, 5) := by decide

theorem witness_UnofficialRefused : ({ State.reset with cfg := { unofficialPolicy := .refuse } } : State).cfg.unofficialPolicy =
      .refuse ∧ Instr.jam02 ∈ unofficialInstrs 0 0 0 := by decide

/-- The edges of each window of the bus. -/
theorem witness_BusDispatch :
    (busRead 0x1FFF { State.reset with ram := [(0x7FF, 0x42)] }).1 = 0x42 ∧
    (busRead 0x2002 { State.reset with ppu := { State.reset.ppu with status := 0x80 } }).1 = 0x80 ∧
    (busRead 0x3FFA { State.reset with ppu := { State.reset.ppu with status := 0x80 } }).1 = 0x80 ∧
    (busRead 0x4000 State.reset).1 = 0 ∧ (busRead 0x4014 State.reset).1 = 0 ∧
    (busRead 0x4018 (boundaryState 0x24 .m000)).1 = 0 ∧ (busRead 0x5FFF (boundaryState 0x24 .m000)).1 = 0 ∧
    (busRead 0x6000 State.reset).1 = 0 ∧ (busRead 0xFFFF State.reset).1 = 0 ∧
    (busRead 0x6000 (busWrite 0x6000 0x5A (boundaryState 0x24 .m000))).1 = 0x5A ∧
    (busRead 0x7FFF (busWrite 0x7FFF 0xA5 (boundaryState 0x24 .m000))).1 = 0xA5 ∧
    (busRead 0x8000 (busWrite 0x8000 0x00 (boundaryState 0x24 .m000))).1 = 0xFF ∧
    (busRead 0xFFFF (boundaryState 0x24 .m000)).1 = 0x90 := by decide

theorem witness_PpuAddrAndData : State.reset.ppu.w = false ∧
    (busWrite 0x2006 0xFF (busWrite 0x2006 0xFF State.reset)).ppu.v = 0x3FFF ∧
    (busWrite 0x2007 0x12 { State.reset with ppu := { State.reset.ppu with v := 0x7FFF } }).ppu.v = 0x0000 := by decide

/-- R364's two writes, and R356's NMI on a rise of PPUCTRL bit 7 in vertical blank. -/
theorem witness_PpuRegisters :
    (let t := busWrite 0x2005 0xFF State.reset;
      (State.reset.ppu.w, t.ppu.fineX, t.ppu.t, t.ppu.w) = (false, 7, 0x001F, true)) ∧
    (let t := busWrite 0x2005 0xFF { State.reset with ppu := { State.reset.ppu with w := true } };
      (t.ppu.fineX, t.ppu.t, t.ppu.w) = (0, 0x73E0, false)) ∧
    (let s : State := { State.reset with
        cfg := { nmiOnCtrlEnable := true }, ppu := { State.reset.ppu with status := 0x80 } };
      ((busWrite 0x2000 0x83 s).cpu.nmiPending, (busWrite 0x2000 0x83 s).ppu.t, (busWrite 0x2000 0x7F s).cpu.nmiPending) =
        (true, 0x0C00, false)) ∧
    (let s : State := { State.reset with ppu := { State.reset.ppu with oamaddr := 0xFF } };
      ((busWrite 0x2004 0x5A s).cell (.oam 0xFF), (busWrite 0x2004 0x5A s).ppu.oamaddr) = (0x5A, 0)) := by decide

/-- The ends of the palette's range, an alias and greyscale. -/
theorem witness_VideoMemoryMirrors_palette : (0x3F00 : PpuAddr) ≤ 0x3F00 ∧ (0x3F00 : PpuAddr) ≤ 0x3FFF ∧
    ppuRead none (ppuWrite none State.reset.ppu 0x3F10 0xEC).2 0x3FE0 = 0x2C ∧
    ppuRead none (ppuWrite none { State.reset.ppu with mask := 1 } 0x3FFF 0xEC).2 0x3F1F = 0x20 := by decide

/-- The ends of the nametables' range, R362's modes, and mapper 001's single screen (R512). -/
theorem witness_VideoMemoryMirrors_nametables : (0x2000 : PpuAddr) ≤ 0x3EFF ∧ (0x3EFF : PpuAddr) < 0x3F00 ∧
    (let q := (ppuWrite none State.reset.ppu 0x2000 0x5A).2;
      (ppuRead none q 0x2400, ppuRead none q 0x3000, ppuRead none q 0x2800) = (0x5A, 0x5A, 0x00)) ∧
    ppuCell none 0x3EFF = some (.nametable 0x6FF) ∧
    ppuCell (some (cartOf (.m004 ⟨0, [], 0, 0, false, false, false, true, .vertical⟩))) 0x2400 = some (.nametable 0x400) ∧
    ppuCell (some (cartOf (.m001 ⟨0, 0, 0x01, 0, 0, 0, true⟩))) 0x2000 = some (.nametable 0x400) := by decide

/-- The ends of the pattern tables: pattern RAM without a cartridge, CHR-ROM and CHR RAM with one (R500). -/
theorem witness_VideoMemoryMirrors_patterns : (0x0000 : PpuAddr) < 0x2000 ∧ (0x1FFF : PpuAddr) < 0x2000 ∧
    ppuRead none (ppuWrite none State.reset.ppu 0x1FFF 0x5A).2 0x1FFF = 0x5A ∧
    (ppuWrite (some (cartOf .m000)) State.reset.ppu 0x0000 0x5A).1 = some (cartOf .m000) ∧
    (let w := ppuWrite (some { cartOf .m000 with chrIsRam := true }) State.reset.ppu 0x0000 0x5A;
      ppuRead w.1 w.2 0x0000 = 0x5A) := by decide

/-- A state whose PPU is at a scanline and cycle. -/
def ppuAt (scanline : Int) (cycle : Nat) (p : Ppu) : State :=
  ppuState { p with scanline := scanline, cycle := cycle }

theorem witness_VblankAndNmi :
    (let t := ppuClock (ppuAt 241 1 { State.reset.ppu with ctrl := 0x80 });
      (bit t.ppu.status 7, t.cpu.nmiPending) = (true, true)) ∧
    (ppuClock (ppuAt (-1) 1 { State.reset.ppu with status := 0xE0 })).ppu.status = 0x00 ∧
    (let t := ppuClock (ppuAt 241 0 { State.reset.ppu with ctrl := 0x80 });
      (bit t.ppu.status 7, t.cpu.nmiPending) = (false, false)) ∧
    bit (ppuClock (ppuAt (-1) 2 { State.reset.ppu with status := 0x80 })).ppu.status 7 = true := by decide

/-- The PPU's position. -/
def position (s : State) : Int × Nat := (s.ppu.scanline, s.ppu.cycle)

theorem witness_PpuPosition :
    (ppuAt 0 0 { State.reset.ppu with mask := 0x08, oddFrame := true }).RangesOk ∧
    position (ppuClock (ppuAt 0 0 { State.reset.ppu with mask := 0x08, oddFrame := true })) = (0, 2) ∧
    position (ppuClock (ppuAt 0 0 { State.reset.ppu with oddFrame := true })) = (0, 1) ∧
    position (ppuClock (ppuAt 260 339 State.reset.ppu)) = (260, 340) ∧
    position (ppuClock (ppuAt 259 340 State.reset.ppu)) = (260, 0) ∧
    (let t := ppuClock (ppuAt 260 340 State.reset.ppu);
      (position t, t.ppu.frameComplete, t.ppu.oddFrame) = ((-1, 0), true, true)) := by
  refine ⟨⟨by decide, by decide, by decide, nofun⟩, by decide, by decide, by decide, by decide, by decide⟩

/-- OAM with every sprite at line $F0 but the first nine, which are at line 0. -/
def nineSprites : Memory := (List.range 55).map (fun i => (4 * (i + 9), (0xF0 : Byte)))

/-- Nine sprites at line 0: eight fill the units, the ninth overflows; at line 239 none is in range. -/
theorem witness_SpriteEvaluationAndFetch :
    (let t := ppuClock (ppuAt 0 257 { State.reset.ppu with oam := nineSprites });
      (t.ppu.sprCount, t.ppu.spr0Possible, bit t.ppu.status 5) = (8, true, true)) ∧
    (let t := ppuClock (ppuAt 239 257 { State.reset.ppu with oam := nineSprites });
      (t.ppu.sprCount, t.ppu.spr0Possible, t.ppu.sprites[7]?.map SpriteUnit.y) = (0, false, some 0xFF)) := by decide

/-- The pattern bytes of the first sprite unit after the fetch at cycle 340 of scanline 15, by PPUCTRL, the unit's y, id and
attributes and the pattern RAM. -/
def fetched (ctrl y id attr : Byte) (patterns : Memory) : Option (Byte × Byte) :=
  (ppuClock (ppuAt 15 340 { State.reset.ppu with
    ctrl := ctrl, sprCount := 1, sprites := [⟨y, id, attr, 0, 0, 0⟩], patternRam := patterns })).ppu.sprites[0]?.map
      fun u => (u.lo, u.hi)

/-- R383 and R384 by hand: an 8x8 sprite's row 7, the same flipped both ways, an 8x16 sprite's row 15, and an 8x8 sprite
whose row is 15, as after PPUCTRL bit 5 fell between evaluation and fetch. -/
theorem witness_SpriteEvaluationAndFetch_fetch :
    fetched 0x08 8 0x02 0x00 [(0x1027, 0xF0), (0x102F, 0x01)] = some (0xF0, 0x01) ∧
    fetched 0x08 8 0x02 0xC0 [(0x1020, 0xF0), (0x1028, 0x01)] = some (0x0F, 0x80) ∧
    fetched 0x20 0 0x03 0x00 [(0x1037, 0xF0), (0x103F, 0x01)] = some (0xF0, 0x01) ∧
    fetched 0x00 0 0x02 0x00 [(0x002F, 0xF0), (0x0037, 0x01)] = some (0xF0, 0x01) := by decide

/-- The scroll's ticks (R370, R377, R378): cycle 256, cycle 257, the vertical transfer's first and last cycle, and a fetch
after the visible part. -/
theorem witness_BackgroundFetches :
    (let p (v t : BitVec 15) : Ppu := { State.reset.ppu with mask := 0x08, v := v, t := t };
      (ppuClock (ppuAt 0 256 (p 0x73BF 0))).ppu.v = 0x0C00 ∧ (ppuClock (ppuAt 239 257 (p 0x7FFF 0))).ppu.v = 0x7BE0 ∧
      (ppuClock (ppuAt (-1) 280 (p 0 0x7FFF))).ppu.v = 0x7BE0 ∧ (ppuClock (ppuAt (-1) 304 (p 0 0x7FFF))).ppu.v = 0x7BE0 ∧
      (ppuClock (ppuAt (-1) 305 (p 0 0x7FFF))).ppu.v = 0 ∧ (ppuClock (ppuAt 0 280 (p 0 0x7FFF))).ppu.v = 0) ∧
    (let s (n : Nat) : State := ppuAt 0 n { State.reset.ppu with nametable := [(0, 0x77)], bgNextLsb := 0x5A };
      (ppuClock (s 321)).ppu.bgNextTileId = 0x77 ∧ (ppuClock (s 321)).ppu.bgPatLo = 0x005A ∧
      (ppuClock (s 337)).ppu.bgPatLo = 0x005A ∧ (ppuClock (s 338)).ppu.bgNextTileId = 0x77 ∧
      (ppuClock (s 338)).ppu.bgPatLo = 0 ∧ (ppuClock (s 339)).ppu.bgNextTileId = 0) := by decide

/-- A line with an opaque background of pixel 1 and sprite 0 opaque at its left edge, behind or in front. -/
def pixelAt (cycle : Nat) (mask attr : Byte) : State :=
  ppuAt 0 cycle { State.reset.ppu with
    mask := mask, bgPatLo := 0xFFFF, sprCount := 1, spr0Possible := true, sprites := [⟨0, 0, attr, 0, 0xFF, 0⟩]
    palette := [(0x00, 0x01), (0x01, 0x02), (0x11, 0x03)] }

/-- The pixel that a tick draws at an index, and the sprite-0 hit flag. -/
def drawn (index : Nat) (s : State) : BitVec 6 × Bool :=
  (Store.read (ppuClock s).ppu.framebuffer index, bit (ppuClock s).ppu.status 6)

/-- R392 and R393 at both ends of a line: sprite in front, sprite behind, a hidden left column, rendering off, and a cycle
that draws nothing. -/
theorem witness_Compositing :
    drawn 0 (pixelAt 1 0x1E 0x00) = (0x03, true) ∧ drawn 0 (pixelAt 1 0x1E 0x20) = (0x02, true) ∧
    drawn 0 (pixelAt 1 0x18 0x00) = (0x01, false) ∧ drawn 255 (pixelAt 256 0x18 0x00) = (0x03, true) ∧
    drawn 255 (pixelAt 256 0x00 0x00) = (0x01, false) ∧ drawn 256 (pixelAt 257 0x1E 0x00) = (0x00, false) := by decide

/-- The APU at a count of the frame sequencer, with a pulse length of 10. -/
def fsState (mode : Bool) (n : Nat) : State :=
  { State.reset with apu := { Apu.reset with
    fsMode := mode, fsCount := n, pulse1 := { Pulse.reset with length := 10 } } }

/-- R431's table: events of the last ticks of each mode. -/
theorem witness_FrameSequencer : (fsState false 0).sysclk % 3 = 0 ∧
    (let t := (apuClock (fsState false 29828)).apu;
      (t.fsCount, t.frameIrq, t.pulse1.length) = (29829, true, 9)) ∧
    (let t := (apuClock (fsState false 29829)).apu;
      (t.fsCount, t.frameIrq, t.pulse1.length) = (0, true, 10)) ∧
    (let t := (apuClock (fsState true 29828)).apu;
      (t.fsCount, t.frameIrq, t.pulse1.length) = (29829, false, 10)) ∧
    (let t := (apuClock (fsState true 37280)).apu;
      (t.fsCount, t.frameIrq, t.pulse1.length) = (37281, false, 9)) ∧
    (let t := (apuClock (fsState true 37281)).apu;
      (t.fsCount, t.frameIrq, t.pulse1.length) = (0, false, 10)) := by decide

/-- R421's length load needs the channel enabled; R424's write with bit 7 set clocks a half frame at once. -/
theorem witness_ApuRegisters :
    (busWrite 0x4003 0xFF (fsState false 0)).apu.pulse1.length = 10 ∧
    (busWrite 0x4003 0xFF (busWrite 0x4015 0x01 (fsState false 0))).apu.pulse1.length = 30 ∧
    (busWrite 0x4017 0x7F (fsState false 5)).apu.pulse1.length = 10 ∧
    (busWrite 0x4017 0x80 (fsState false 5)).apu.pulse1.length = 9 := by decide

/-- An APU whose noise timer and DMC timer are at 0, with a DMC byte to fetch and a triangle of length 0. -/
def timersState (sysclk : Nat) (noiseDiv : Nat) : State :=
  { State.reset with
    sysclk := sysclk
    apu := { Apu.reset with
      noise := { Noise.reset with div := noiseDiv, periodIdx := 15, length := 1, constVol := true, vol := 9 }
      triangle := { Triangle.reset with seq := 31 }
      dmc := { Dmc.reset with bytesRemaining := 1 } } }

/-- R457's step of the register from 1, R456's period, R464's request, and no tick off the APU's clock; the triangle's
output at length 0 is the model's reading (log entry 22). -/
theorem witness_ApuTimersAndOutputs :
    (timersState 3 0).sysclk % 3 = 0 ∧ apuClock (timersState 4 0) = timersState 4 0 ∧
    (let t := apuClock (timersState 3 0);
      (t.apu.noise.lfsr, t.apu.noise.div, t.apu.mixed.noise, t.apu.mixed.triangle) = (0x4000, 4067, 9, 15)) ∧
    (let t := apuClock (timersState 3 2); (t.apu.noise.lfsr, t.apu.noise.div, t.apu.mixed.noise) = (1, 1, 0)) ∧
    (let t := apuClock (timersState 3 0);
      (t.apu.dmc.div, t.cpu.dmcFetchPending, t.cpu.dmcFetchAddr) = (427, true, 0xC000)) := by decide

/-- A DMC with a full buffer. -/
def dmcOf (bitsLeft : Nat) (empty : Bool) : Dmc :=
  { Dmc.reset with bitsLeft := bitsLeft, buffer := 0x99, bufferEmpty := empty, shift := 0x82, level := 64, silence := false }

theorem witness_DmcFillAndOutput :
    (let o := (dmcOf 2 false).clockOutput; (o.level, o.shift, o.bitsLeft, o.silence) = (62, 0x41, 1, false)) ∧
    (let o := (dmcOf 1 true).clockOutput; (o.level, o.shift, o.bitsLeft, o.silence) = (62, 0x41, 8, true)) ∧
    (let o := (dmcOf 1 false).clockOutput; (o.level, o.shift, o.bitsLeft, o.bufferEmpty) = (62, 0x99, 8, true)) := by decide

theorem witness_ControllerSerial : bit (0xFF : Byte) 0 = true ∧ bit (0xFE : Byte) 0 = false ∧
    padReads 9 (busWrite 0x4016 0xFE (busWrite 0x4016 0xFF (setButtons false 0x7F State.reset))) =
      [0, 1, 1, 1, 1, 1, 1, 1, 0] ∧
    (let on := busWrite 0x4016 0xFF (setButtons true 0x80 State.reset);
      (busRead 0x4017 (busRead 0x4017 on).2).1 = 1 ∧ (busRead 0x4016 (busRead 0x4017 on).2).1 = 0) ∧
    (let off := busWrite 0x4016 0xFE (busWrite 0x4016 0xFF (setButtons true 0xA0 State.reset));
      let once := (busRead 0x4017 off).2;
      let twice := (busRead 0x4017 once).2;
      ((busRead 0x4017 off).1, (busRead 0x4017 once).1, (busRead 0x4017 twice).1) = (1, 0, 1)) := by decide

/-- A 16-byte header by its magic's first byte, its mapper's number, its PRG count and its second flag byte's low half. -/
def headerOf (magic mapper nPrg variant : Byte) : List Byte :=
  [magic, 0x45, 0x53, 0x1A, nPrg, 0x00, mapper <<< 4 ||| 0x01, variant, 0, 0, 0, 0, 0, 0, 0, 0]

/-- The PRG count of a loaded image, and whether its CHR is RAM. -/
def loadedAs (image : List Byte) : Option (Nat × Bool) :=
  match insertCartridge image [] State.reset with
  | .ok t => t.cart.map fun c => (c.nPrg, c.chrIsRam)
  | .error _ => none

/-- V63.21, at both ends of the window. -/
theorem witness_PrgRamReadsBack : (boundaryState 0x24 .m000).cart = some (cartOf .m000) ∧
    (busRead 0x6000 (busReset (busWrite 0x6000 0x5A (boundaryState 0x24 .m000)))).1 = 0x5A ∧
    (busRead 0x7FFF (busReset (busWrite 0x7FFF 0x5A (boundaryState 0x24 .m000)))).1 = 0x5A ∧
    (busRead 0x7FFF (busReset (busWrite 0x6000 0x5A (boundaryState 0x24 .m000)))).1 = 0x00 := by decide

/-- The registers of mapper 001 after five writes whose bit 0 spells $15, the fifth at an address. -/
def mmc1After (a : Word) : Option Mapper :=
  (busWrite a 1 (busWrite 0x8000 0 (busWrite 0xA000 1 (busWrite 0xC000 0 (busWrite 0xFFFF 1
    (boundaryState 0x24 (.reset .m001))))))).cart.map Cartridge.mapper

theorem witness_Mmc1SerialAndBanks :
    mmc1After 0x8000 = some (.m001 ⟨0, 0, 0x15, 0, 0, 0, true⟩) ∧ mmc1After 0x9FFF = mmc1After 0x8000 ∧
    mmc1After 0xA000 = some (.m001 ⟨0, 0, 0x0C, 0x15, 0, 0, false⟩) ∧ mmc1After 0xBFFF = mmc1After 0xA000 ∧
    mmc1After 0xC000 = some (.m001 ⟨0, 0, 0x0C, 0, 0x15, 0, false⟩) ∧ mmc1After 0xDFFF = mmc1After 0xC000 ∧
    mmc1After 0xE000 = some (.m001 ⟨0, 0, 0x0C, 0, 0, 0x15, false⟩) ∧ mmc1After 0xFFFF = mmc1After 0xE000 ∧
    (busWrite 0x8000 0x80 (boundaryState 0x24 (.m001 ⟨3, 2, 0, 0, 0, 0, false⟩))).cart.map Cartridge.mapper =
      some (.m001 ⟨0, 0, 0x0C, 0, 0, 0, false⟩) := by decide

/-- R513 and R514 on two PRG banks and two 8 KB CHR banks: the byte read at each edge, by the PRG mode and the CHR mode. -/
theorem witness_Mmc1SerialAndBanks_banks : 0 < (cartOf .m000).nPrg ∧ 0 < (cartOf .m000).nChr ∧
    (let s (control chr prg : BitVec 5) : State := boundaryState 0x24 (.m001 ⟨0, 0, control, chr, chr, prg, true⟩);
      let r (control prg : BitVec 5) (a : Word) : Byte := (busRead a (s control 0 prg)).1
      let c (control chr : BitVec 5) (p : PpuAddr) : Byte := ppuRead (s control chr 0).cart (s control chr 0).ppu p
      (r 0x0C 0 0x8000, r 0x0C 0 0xFFFF, r 0x0C 1 0xBFFF) = (0xFF, 0x90, 0x90) ∧
      (r 0x08 1 0x8000, r 0x08 1 0xFFFF, r 0x08 0 0xC000) = (0xFF, 0x90, 0xFF) ∧
      (r 0x00 1 0x8000, r 0x04 3 0xFFFF) = (0xFF, 0x90) ∧
      (c 0x00 3 0x0000, c 0x10 2 0x0000, c 0x10 2 0x1000, c 0x00 1 0x0000) = (0x66, 0x66, 0x66, 0x55)) := by decide

theorem witness_DiscreteMappers : (0x8000 : Word) ≤ 0xBFFF ∧ (0x8000 : Word) ≤ 0xC000 ∧ 0 < (cartOf .m000).nPrg ∧
    ((cartOf .m000).chrIsRam = true ∨ 0 < (cartOf .m000).nChr) ∧ (0x1FFF : PpuAddr) < 0x2000 ∧
    (let t := busWrite 0x8000 0x00 (boundaryState 0x24 .m000);
      (t.busConflicts, (busRead 0x8000 t).1, (busRead 0xFFFF t).1, ppuRead t.cart t.ppu 0x0000) = (0, 0xFF, 0x90, 0x55)) ∧
    (let t := busWrite 0x8000 0xFE (boundaryState 0x24 (.m002 0));
      (t.busConflicts, (busRead 0x8000 t).1, (busRead 0xFFFF t).1) = (1, 0xFF, 0x90)) ∧
    (let t := busWrite 0xFFFF 0x91 (boundaryState 0x24 (.m002 0));
      (t.busConflicts, (busRead 0x8000 t).1, (busRead 0xBFFF t).1) = (1, 0x00, 0x90)) ∧
    (let t := busWrite 0x8000 0xFF (boundaryState 0x24 (.m003 0));
      (t.busConflicts, (busRead 0x8000 t).1, ppuRead t.cart t.ppu 0x0000) = (0, 0xFF, 0x66)) := by decide

/-- Mapper 004 with a latch of 1 and the IRQ enabled, its PPU at a position, rendering on or off. -/
def mmc3At (scanline : Int) (cycle : Nat) (mask counter : Byte) : State :=
  { ppuAt scanline cycle { State.reset.ppu with mask := mask } with
    cart := some (cartOf (.m004 ⟨0, [], 1, counter, false, true, false, false, .vertical⟩)) }

/-- The counter and the IRQ of mapper 004. -/
def mmc3Counter (s : State) : Option (Byte × Bool) :=
  match s.cart.map Cartridge.mapper with
  | some (.m004 r) => some (r.irqCounter, r.irq)
  | _ => none

theorem witness_Mmc3BanksAndCounter :
    mmc3Counter (ppuClock (mmc3At (-1) 260 0x10 1)) = some (0, true) ∧
    mmc3Counter (ppuClock (mmc3At 239 260 0x08 0)) = some (1, false) ∧
    mmc3Counter (ppuClock (mmc3At 240 260 0x18 1)) = some (1, false) ∧
    mmc3Counter (ppuClock (mmc3At 0 260 0x00 1)) = some (1, false) ∧
    mmc3Counter (busWrite 0xE000 0 (ppuClock (mmc3At (-1) 260 0x10 1))) = some (0, false) := by decide

/-- The registers of mapper 004 after a write of $83 to an address, from bank select $07. -/
def mmc3After (a : Word) : Option Mapper :=
  (busWrite a 0x83 (boundaryState 0x24
    (.m004 ⟨7, [0, 0, 0, 0, 0, 0, 0, 0], 0, 5, false, true, true, false, .vertical⟩))).cart.map Cartridge.mapper

/-- R531's table, at the first and last address of each range. -/
theorem witness_Mmc3BanksAndCounter_registers :
    mmc3After 0x8000 = some (.m004 ⟨0x83, [0, 0, 0, 0, 0, 0, 0, 0], 0, 5, false, true, true, false, .vertical⟩) ∧
    mmc3After 0x9FFF = some (.m004 ⟨7, [0, 0, 0, 0, 0, 0, 0, 0x83], 0, 5, false, true, true, false, .vertical⟩) ∧
    mmc3After 0xA000 = some (.m004 ⟨7, [0, 0, 0, 0, 0, 0, 0, 0], 0, 5, false, true, true, true, .horizontal⟩) ∧
    mmc3After 0xBFFF = some (.m004 ⟨7, [0, 0, 0, 0, 0, 0, 0, 0], 0, 5, false, true, true, false, .vertical⟩) ∧
    mmc3After 0xC000 = some (.m004 ⟨7, [0, 0, 0, 0, 0, 0, 0, 0], 0x83, 5, false, true, true, false, .vertical⟩) ∧
    mmc3After 0xDFFF = some (.m004 ⟨7, [0, 0, 0, 0, 0, 0, 0, 0], 0, 0, true, true, true, false, .vertical⟩) ∧
    mmc3After 0xE000 = some (.m004 ⟨7, [0, 0, 0, 0, 0, 0, 0, 0], 0, 5, false, false, false, false, .vertical⟩) ∧
    mmc3After 0xFFFF = some (.m004 ⟨7, [0, 0, 0, 0, 0, 0, 0, 0], 0, 5, false, true, true, false, .vertical⟩) := by decide

/-- R532 and R534 on four 8 KB PRG banks and sixteen 1 KB CHR banks, at edges of the ranges, by bank select. -/
theorem witness_Mmc3BanksAndCounter_banks : ([8, 8, 9, 9, 0, 8, 3, 0] : List Byte).length = 8 ∧
    (let s (select : Byte) : State :=
        boundaryState 0x24 (.m004 ⟨select, [8, 8, 9, 9, 0, 8, 3, 0], 0, 0, false, false, false, false, .vertical⟩)
      let r (select : Byte) (a : Word) : Byte := (busRead a (s select)).1
      let c (select : Byte) (p : PpuAddr) : Byte := ppuRead (s select).cart (s select).ppu p
      (r 0x00 0x9FFF, r 0x00 0xA000, r 0x00 0xFFFF) = (0x90, 0xFF, 0x90) ∧
      (r 0x40 0xDFFF, r 0x40 0xA000, r 0x40 0xFFFF) = (0x90, 0xFF, 0x90) ∧
      (c 0x00 0x0000, c 0x00 0x0400, c 0x00 0x1800, c 0x00 0x1C00) = (0x66, 0x00, 0x55, 0x66) ∧
      (c 0x80 0x1000, c 0x80 0x0800, c 0x80 0x0C00, c 0x80 0x1FFF) = (0x66, 0x55, 0x66, 0x00)) := by decide

theorem loadedAs_headerOf (rest : List Byte) :
    loadedAs (headerOf 0x4E 4 1 0 ++ rest) = if rest.length < 16384 then none else some (1, true) := by
  have h : parseHeader ((headerOf 0x4E 4 1 0 ++ rest).take 16) = .ok ⟨1, 0, .vertical, false, .m004⟩ := rfl
  have hl : (headerOf 0x4E 4 1 0 ++ rest).length = 16 + rest.length := List.length_append
  unfold loadedAs insertCartridge parseImage
  rw [h]
  dsimp only
  rw [hl]
  by_cases hr : rest.length < 16384
  · rw [if_pos hr, if_pos (by simp; omega)]
  · rw [if_neg hr, if_neg (by simp; omega)]
    rfl

/-- An image that loads, at its least length, and one rejected for each reason of R493: a byte too short, the magic, the
header variant, the mapper, the PRG count, and a header cut short. -/
theorem witness_CartridgeImages :
    loadedAs (headerOf 0x4E 4 1 0 ++ List.replicate 16384 0xEA) = some (1, true) ∧
    loadedAs (headerOf 0x4E 4 1 0 ++ List.replicate 16383 0xEA) = none ∧ loadedAs (headerOf 0x4F 4 1 0) = none ∧
    loadedAs (headerOf 0x4E 4 1 8) = none ∧ loadedAs (headerOf 0x4E 5 1 0) = none ∧
    loadedAs (headerOf 0x4E 0 0 0) = none ∧ loadedAs ((headerOf 0x4E 4 1 0).take 15) = none := by
  refine ⟨?_, ?_, by decide, by decide, by decide, by decide, by decide⟩ <;>
    rw [loadedAs_headerOf, List.length_replicate] <;> rfl
end Sys2Proof.Tests
end

section
/-! SUPPORT. What no part of a step changes: the configuration, the controller's buttons and what the cartridge is; and
the master clock, which only the last act of a step counts up (R76). -/

namespace Sys2Proof.Machine

/-! ## What the cartridge is -/

/-- `d` is the cartridge `c`, maybe with other mapper registers, PRG-RAM or CHR RAM (R499, R500). -/
structure Cartridge.SameRom (c d : Cartridge) : Prop where
  prgRom : d.prgRom = c.prgRom
  nPrg : d.nPrg = c.nPrg
  nChr : d.nChr = c.nChr
  chrIsRam : d.chrIsRam = c.chrIsRam
  headerMirroring : d.headerMirroring = c.headerMirroring
  mapperId : d.mapperId = c.mapperId
  chrRom : c.chrIsRam = false → d.chr = c.chr

theorem Cartridge.SameRom.refl (c : Cartridge) : c.SameRom c := ⟨rfl, rfl, rfl, rfl, rfl, rfl, fun _ => rfl⟩

theorem Cartridge.SameRom.trans {c d e : Cartridge} (h : c.SameRom d) (h' : d.SameRom e) : c.SameRom e where
  prgRom := h'.prgRom.trans h.prgRom
  nPrg := h'.nPrg.trans h.nPrg
  nChr := h'.nChr.trans h.nChr
  chrIsRam := h'.chrIsRam.trans h.chrIsRam
  headerMirroring := h'.headerMirroring.trans h.headerMirroring
  mapperId := h'.mapperId.trans h.mapperId
  chrRom hc := (h'.chrRom (h.chrIsRam.trans hc)).trans (h.chrRom hc)

theorem Cartridge.mapperId_write (c : Cartridge) (a : Word) (d : Byte) :
    Cartridge.mapperId { c with mapper := c.mapper.write a d } = c.mapperId := by
  unfold Cartridge.mapperId
  cases c.mapper <;> rfl

theorem Cartridge.cpuWrite_sameRom (c : Cartridge) (a : Word) (d : Byte) : c.SameRom (c.cpuWrite a d) := by
  unfold Cartridge.cpuWrite
  split
  · exact { Cartridge.SameRom.refl c with }
  · exact { Cartridge.SameRom.refl c with mapperId := c.mapperId_write a d }

theorem Cartridge.ppuWrite_sameRom (c : Cartridge) (a : PpuAddr) (d : Byte) : c.SameRom (c.ppuWrite a d) := by
  unfold Cartridge.ppuWrite
  split
  · rename_i hram
    exact { Cartridge.SameRom.refl c with chrRom := fun hrom => absurd (hram.symm.trans hrom) (by decide) }
  · exact .refl c

theorem Cartridge.scanline_sameRom (c : Cartridge) : c.SameRom c.scanline := by
  unfold Cartridge.scanline
  split
  · rename_i r hr
    exact { Cartridge.SameRom.refl c with mapperId := by simp [Cartridge.mapperId, hr] }
  · exact .refl c

/-- No cartridge before and after, or the same one before and after. -/
abbrev SameCart : Option Cartridge → Option Cartridge → Prop := Option.Rel Cartridge.SameRom

theorem SameCart.refl : ∀ c : Option Cartridge, SameCart c c
  | none => .none
  | some c => .some (.refl c)

theorem SameCart.trans {c d e : Option Cartridge} : SameCart c d → SameCart d e → SameCart c e
  | .none, .none => .none
  | .some h, .some h' => .some (h.trans h')

theorem ppuWrite_sameCart (c : Option Cartridge) (p : Ppu) (a : PpuAddr) (d : Byte) :
    SameCart c (ppuWrite c p a d).1 := by
  unfold ppuWrite
  split
  · cases c with
    | none => exact .none
    | some c => exact .some (c.ppuWrite_sameRom a d)
  · split <;> exact .refl c

/-- Of the PPU's registers only PPUDATA (R366) writes to the cartridge. -/
theorem writeReg_sameCart (cfg : Config) (c : Option Cartridge) (p : Ppu) (reg : BitVec 3) (d : Byte) :
    SameCart c (p.writeReg cfg c reg d).cart := by
  rcases bv3_cases reg with rfl | rfl | rfl | rfl | rfl | rfl | rfl | rfl
  case inr.inr.inr.inr.inr.inr.inr => exact ppuWrite_sameCart c p (p.v.setWidth 14) d
  all_goals exact .refl c

theorem ppuTick_sameCart (cfg : Config) (c : Option Cartridge) (p : Ppu) : SameCart c (ppuTick cfg c p).cart := by
  rcases ppuTick_cart c p cfg with e | e <;> rw [e]
  · exact .refl c
  · cases c with
    | none => exact .none
    | some c => exact .some c.scanline_sameRom

/-! ## The buttons -/

/-- The host's button bytes are the same (R325). -/
def Controller.SameButtons (k l : Controller) : Prop := l.buttons0 = k.buttons0 ∧ l.buttons1 = k.buttons1

theorem Controller.SameButtons.refl (k : Controller) : k.SameButtons k := ⟨rfl, rfl⟩

theorem Controller.SameButtons.trans {k l m : Controller} (h : k.SameButtons l) (h' : l.SameButtons m) :
    k.SameButtons m := ⟨h'.1.trans h.1, h'.2.trans h.2⟩

theorem Controller.read_sameButtons (k : Controller) (pad : Bool) : k.SameButtons (k.read pad).2 := by
  cases pad <;> exact .refl k

theorem Controller.write_sameButtons (k : Controller) (v : Byte) : k.SameButtons (k.write v) := by
  unfold Controller.write
  split <;> exact .refl k

theorem busRead_sameButtons (a : Word) (s : State) : s.ctrl.SameButtons (busRead a s).2.ctrl := by
  unfold busRead
  split
  · exact .refl _
  · unfold deviceRead
    split; · exact .refl _
    split; · exact .refl _
    split; · exact .refl _
    split; · exact s.ctrl.read_sameButtons false
    split; · exact s.ctrl.read_sameButtons true
    exact .refl _

/-! ## The set-up: configuration, buttons and cartridge -/

/-- What no step changes. -/
structure SameSetup (s t : State) : Prop where
  cfg : t.cfg = s.cfg
  buttons : s.ctrl.SameButtons t.ctrl
  cart : SameCart s.cart t.cart

theorem SameSetup.refl (s : State) : SameSetup s s := ⟨rfl, .refl _, .refl _⟩

theorem SameSetup.trans {s t u : State} (h : SameSetup s t) (h' : SameSetup t u) : SameSetup s u :=
  ⟨h'.cfg.trans h.cfg, h.buttons.trans h'.buttons, h.cart.trans h'.cart⟩

theorem busRead_sameSetup (a : Word) (s : State) : SameSetup s (busRead a s).2 :=
  ⟨busRead_cfg a s, busRead_sameButtons a s, busRead_cart a s ▸ .refl _⟩

theorem deviceWrite_sameSetup (a : Word) (v : Byte) (s : State) : SameSetup s (deviceWrite a v s) := by
  unfold deviceWrite
  split; · exact { SameSetup.refl s with }
  split; · exact { SameSetup.refl s with cart := writeReg_sameCart s.cfg s.cart s.ppu (field a 0 3) v }
  split; · exact { SameSetup.refl s with }
  split; · exact { SameSetup.refl s with }
  split; · exact { SameSetup.refl s with }
  split; · exact { SameSetup.refl s with buttons := s.ctrl.write_sameButtons v }
  split; · exact { SameSetup.refl s with }
  exact .refl s

theorem busWrite_sameSetup (a : Word) (v : Byte) (s : State) : SameSetup s (busWrite a v s) := by
  unfold busWrite
  split
  · rename_i c hc
    split
    · exact { SameSetup.refl s with cart := hc ▸ .some (c.cpuWrite_sameRom a v) }
    · exact deviceWrite_sameSetup a v s
  · exact deviceWrite_sameSetup a v s

theorem dmaStep_sameSetup (s : State) : SameSetup s (dmaStep s) := by
  unfold dmaStep
  split
  · split
    · exact { SameSetup.refl s with }
    · exact .refl s
  · split
    · exact { busRead_sameSetup (mkWord s.cpu.dmaPage s.cpu.dmaIndex) s with }
    · exact { SameSetup.refl s with }

theorem dmcFetchStep_sameSetup (s : State) : SameSetup s (dmcFetchStep s) := by
  unfold dmcFetchStep
  dsimp only
  split
  · exact { busRead_sameSetup s.cpu.dmcFetchAddr { s with cpu := { s.cpu with dmcStall := s.cpu.nextStall } } with }
  · exact { SameSetup.refl s with }

theorem ppuClock_sameSetup (s : State) : SameSetup s (ppuClock s) :=
  { SameSetup.refl s with cart := ppuTick_sameCart s.cfg s.cart s.ppu }

theorem apuClock_sameSetup (s : State) : SameSetup s (apuClock s) := by
  unfold apuClock dmcReaderCheck
  split
  · split <;> exact { SameSetup.refl s with }
  · exact .refl s

/-- The set-up of a state is an invariant of every part of a step. -/
theorem keptByParts_sameSetup (s : State) : KeptByParts (SameSetup s) where
  read a t h := h.trans (busRead_sameSetup a t)
  write a v t h := h.trans (busWrite_sameSetup a v t)
  regs _ _ _ _ _ _ _ h := { h with }
  status _ _ _ h := { h with }
  cycles _ _ _ h := { h with }
  countDown _ h := { h with }
  forceU _ h := { h with }
  nmiTaken _ h := { h with }
  dma t _ h := h.trans (dmaStep_sameSetup t)
  dmc t _ h := h.trans (dmcFetchStep_sameSetup t)
  ppu t h := h.trans (ppuClock_sameSetup t)
  apu t h := h.trans (apuClock_sameSetup t)
  clock _ h := { h with }

theorem step_sameSetup {s t : State} (h : step s = .next t) : SameSetup s t :=
  (keptByParts_sameSetup s).step (.refl s) h

/-! ## The master clock -/

/-- A fetch only reads the bus and moves PC (R25, R283). -/
theorem fetchInstr_acts {W : Prop} (s : State) : CpuActs W s (fetchInstr s).2 := by
  have hb : ∀ {u}, CpuActs W s u → CpuActs W s (fetchByte u).2 := fun h => (h.read _).setPC _
  unfold fetchInstr
  dsimp only
  split
  · exact hb .refl
  · exact hb .refl
  · exact hb (hb .refl)
  · exact hb (hb (hb .refl))

theorem boundary_sysclk {s t : State} (h : boundary s = .next t) : t.sysclk = s.sysclk := by
  obtain ⟨u, hu, rfl⟩ := mapNext_eq_next.1 h
  change u.sysclk = s.sysclk
  split at hu
  · cases hu
    exact (CpuActs.refl.takeException (W := False) vectorNmi false).sysclk
  · split at hu
    · cases hu
      exact (CpuActs.refl.takeException (W := False) vectorIrq false).sysclk
    · exact (exec_acts _ _ u hu).sysclk.trans (fetchInstr_acts (W := False) _).sysclk

theorem dmaStep_sysclk (s : State) : (dmaStep s).sysclk = s.sysclk := by
  unfold dmaStep
  split
  · split <;> rfl
  · split
    · exact busRead_sysclk (mkWord s.cpu.dmaPage s.cpu.dmaIndex) s
    · rfl

theorem dmcFetchStep_sysclk (s : State) : (dmcFetchStep s).sysclk = s.sysclk := by
  unfold dmcFetchStep
  dsimp only
  split
  · exact busRead_sysclk s.cpu.dmcFetchAddr _
  · rfl

theorem cpuTick_sysclk {s t : State} (h : cpuTick s = .next t) : t.sysclk = s.sysclk := by
  unfold cpuTick at h
  split at h
  · cases h; exact dmaStep_sysclk s
  split at h
  · cases h; exact dmcFetchStep_sysclk s
  split at h
  · obtain ⟨u, hu, rfl⟩ := mapNext_eq_next.1 h
    exact (boundary_sysclk hu : u.sysclk = s.sysclk)
  · cases h; rfl

theorem cpuClock_sysclk {s t : State} (h : cpuClock s = .next t) : t.sysclk = s.sysclk := by
  unfold cpuClock at h
  split at h
  · exact cpuTick_sysclk h
  · cases h; rfl

theorem apuClock_sysclk (s : State) : (apuClock s).sysclk = s.sysclk := by
  unfold apuClock dmcReaderCheck
  split
  · split <;> rfl
  · rfl

theorem devicesTick_sysclk (s : State) : (devicesTick s).sysclk = s.sysclk + 1 :=
  congrArg (· + 1) (apuClock_sysclk (ppuClock s))

/-- Every step counts the master clock up by one (R76). -/
theorem step_sysclk {s t : State} (h : step s = .next t) : t.sysclk = s.sysclk + 1 := by
  obtain ⟨u, hu, rfl⟩ := mapNext_eq_next.1 (show mapNext devicesTick (cpuClock s) = .next t from h)
  rw [devicesTick_sysclk, cpuClock_sysclk hu]

/-- Settles O8: `SameSetup` is an invariant of the parts of a step, and the clock is counted by `devicesTick` alone. -/
theorem stepKeepsRomAndConfig : Obligations.StepKeepsRomAndConfig := by
  unfold Obligations.StepKeepsRomAndConfig
  intro s t h
  obtain ⟨hcfg, ⟨hb0, hb1⟩, hcart⟩ := step_sameSetup h
  refine ⟨step_sysclk h, hcfg, hb0, hb1, ?_⟩
  generalize s.cart = c, t.cart = d at hcart
  cases hcart with
  | none => trivial
  | some hr => exact ⟨hr.prgRom, hr.nPrg, hr.nChr, hr.chrIsRam, hr.headerMirroring, hr.mapperId, hr.chrRom⟩

end Sys2Proof.Machine
end

section
/-! SUPPORT. The three invariants of the machine, each a property that every part of a step keeps (R27, R28, R42, R60, R35,
R371, R431, R510), and that the reset state meets them (R562). -/

namespace Sys2Proof.Machine

/-! ## The status register's bits B and U (R27, R28) -/

theorem statusOk_of_p_eq {s t : State} (e : t.cpu.p = s.cpu.p) (h : s.StatusOk) : t.StatusOk := by
  rw [State.StatusOk, e]
  exact h

theorem setP_statusOk {s : State} {p : Byte} (hp : SameBU s.cpu.p p ∨ (flagB p = false ∧ flagU p = true))
    (h : s.StatusOk) : (s.setP p).StatusOk := by
  rcases hp with ⟨hB, hU⟩ | hp
  · exact ⟨hB.trans h.1, hU.trans h.2⟩
  · exact hp

theorem forceU_statusOk {s : State} (h : s.StatusOk) : s.forceU.StatusOk :=
  ⟨(bit_setU true s.cpu.p 4).trans h.1, bit_setU true s.cpu.p 5⟩

theorem dmaRead_p (s : State) : (dmaRead s).cpu.p = s.cpu.p := by simp [dmaRead]

theorem Cpu.dmaAdvance_p (c : Cpu) : c.dmaAdvance.p = c.p := by
  unfold Cpu.dmaAdvance
  dsimp only
  split <;> rfl

theorem dmaStep_p (s : State) : (dmaStep s).cpu.p = s.cpu.p := by
  unfold dmaStep
  split
  · split <;> rfl
  · split
    · exact dmaRead_p s
    · exact s.cpu.dmaAdvance_p

theorem dmcDeliver_p (s : State) : (dmcDeliver s).cpu.p = s.cpu.p := by simp [dmcDeliver]

theorem dmcFetchStep_p (s : State) : (dmcFetchStep s).cpu.p = s.cpu.p := by
  unfold dmcFetchStep
  dsimp only
  split
  · exact dmcDeliver_p _
  · rfl

theorem apuClock_p (s : State) : (apuClock s).cpu.p = s.cpu.p := by
  unfold apuClock dmcReaderCheck
  split
  · split <;> rfl
  · rfl

/-- Only the CPU's updates of P and `P.U <- 1` touch the status register; each keeps B at 0 and U at 1. -/
theorem keptByParts_statusOk : KeptByParts State.StatusOk where
  read a s := statusOk_of_p_eq (congrArg Cpu.p (busRead_cpu a s))
  write a v s := statusOk_of_p_eq (busWrite_p a v s)
  regs _ _ _ _ _ _ _ h := h
  status _ _ hp h := setP_statusOk hp h
  cycles _ _ _ h := h
  countDown _ h := h
  forceU _ h := forceU_statusOk h
  nmiTaken _ h := h
  dma s _ := statusOk_of_p_eq (dmaStep_p s)
  dmc s _ := statusOk_of_p_eq (dmcFetchStep_p s)
  ppu _ h := h
  apu s := statusOk_of_p_eq (apuClock_p s)
  clock _ h := h

/-- Settles O16: `StatusOk` is an invariant of the parts of a step. -/
theorem statusKeptByStep : Obligations.StatusKeptByStep := by
  unfold Obligations.StatusKeptByStep
  exact fun _ _ h hs => keptByParts_statusOk.step h hs

/-! ## The memories (R42, R60, R350, R494) -/

theorem apuClock_memoryOk {s : State} (h : s.MemoryOk) : (apuClock s).MemoryOk := by
  unfold apuClock dmcReaderCheck
  split
  · split <;> exact h
  · exact h

/-- Memories change by bus writes, OAM DMA and the PPU's pixel alone. -/
theorem keptByParts_memoryOk : KeptByParts State.MemoryOk where
  read a _ h := busRead_memoryOk h a
  write a v _ h := busWrite_memoryOk h a v
  regs _ _ _ _ _ _ _ h := h
  status _ _ _ h := h
  cycles _ _ _ h := h
  countDown _ h := h
  forceU _ h := h
  nmiTaken _ h := h
  dma _ _ h := dmaStep_memoryOk h
  dmc _ _ h := dmcFetchStep_memoryOk h
  ppu _ h := ppuClock_memoryOk h
  apu _ h := apuClock_memoryOk h
  clock _ h := h

/-- Settles O17: `MemoryOk` is an invariant of the parts of a step. -/
theorem memoryKeptByStep : Obligations.MemoryKeptByStep := by
  unfold Obligations.MemoryKeptByStep
  exact fun _ _ h hs => keptByParts_memoryOk.step h hs

/-! ## The counters (R35, R315, R371, R431, R457, R510) -/

/-- A cycle count within the bound keeps every range (R35). -/
theorem setCycles_rangesOk {s : State} {n : Nat} (hn : n ≤ cycleBound s.cfg) (h : s.RangesOk) :
    (s.setCycles n).RangesOk := by
  obtain ⟨⟨_, hstall, hpending, hdma⟩, hrest⟩ := h
  exact ⟨⟨hn, hstall, hpending, hdma⟩, hrest⟩

theorem countDown_rangesOk {s : State} (h : s.RangesOk) : (countDown s).RangesOk :=
  setCycles_rangesOk (Nat.le_trans (Nat.sub_le s.cpu.cycles 1) h.1.1) h

theorem keptByParts_rangesOk : KeptByParts State.RangesOk where
  read a _ h := busRead_rangesOk h a
  write a v _ h := busWrite_rangesOk h a v
  regs _ _ _ _ _ _ _ h := h
  status _ _ _ h := h
  cycles _ _ hn h := setCycles_rangesOk hn h
  countDown _ h := countDown_rangesOk h
  forceU _ h := h
  nmiTaken _ h := h
  dma _ ha h := dmaStep_rangesOk ha h
  dmc _ ha h := dmcFetchStep_rangesOk ha h
  ppu _ h := ppuClock_rangesOk h
  apu _ h := apuClock_rangesOk h
  clock _ h := h

/-- Settles O18: `RangesOk` is an invariant of the parts of a step. -/
theorem rangesKeptByStep : Obligations.RangesKeptByStep := by
  unfold Obligations.RangesKeptByStep
  exact fun _ _ h hs => keptByParts_rangesOk.step h hs

/-! ## The reset state (R562) -/

/-- Settles O19, on the one reset state, which has no cartridge. -/
theorem resetMeetsInvariants : Obligations.ResetMeetsInvariants := by
  unfold Obligations.ResetMeetsInvariants
  have hstatus : State.reset.StatusOk := by decide
  have hram : Store.wf State.reset.ram ∧ Store.within 2048 State.reset.ram := by decide
  have hvideo : State.reset.ppu.MemoryOk := by decide
  have hcpu : State.reset.cpu.RangesOk State.reset.cfg := by decide
  have hppu : State.reset.ppu.RangesOk := by decide
  have hapu : State.reset.apu.RangesOk := by decide
  exact ⟨hstatus, ⟨hram, hvideo, nofun⟩, hcpu, hppu, hapu, nofun⟩

end Sys2Proof.Machine
end

section
/-! SUPPORT. The latency window of an instruction (R38, R293, R296). -/

namespace Sys2Proof.Machine

theorem CpuActs.mono {W V : Prop} (hWV : W → V) {s t : State} (h : CpuActs W s t) : CpuActs V s t := by
  induction h with
  | refl => exact .refl
  | read a _ ih => exact ih.read a
  | write a v _ ih => exact ih.write a v
  | regs a x y sp pc _ ih => exact ih.regs a x y sp pc
  | status p hp _ ih => exact ih.status p hp
  | cycles n hn _ ih => exact ih.cycles n hn
  | window w hw _ ih => exact ih.window w (hWV hw)

/-- An instruction other than SEI, CLI and PLP leaves the window as it is (R293). -/
theorem exec_iWindow_of_ne {i : Instr} {s t : State} (h : exec i s = .next t) (hi : ¬(i = .sei ∨ i = .cli ∨ i = .plp)) :
    t.cpu.iWindow = s.cpu.iWindow := ((exec_acts i s t h).mono hi).iWindow

/-- PLP's window holds the I of before the pull, under `PLP_I_LATENCY` alone (R296). -/
theorem plp_iWindow (v : Byte) (s : State) :
    (plp v s).cpu.iWindow = if s.cfg.plpILatency then some (flagI s.cpu.p) else s.cpu.iWindow := by
  unfold plp
  dsimp only
  split <;> rfl

theorem execPlp_iWindow {s t : State} (h : exec .plp s = .next t) :
    t.cpu.iWindow = if s.cfg.plpILatency then some (flagI s.cpu.p) else s.cpu.iWindow := by
  obtain rfl : (plp (pull s).1 (pull s).2).setCycles 4 = t := Host.Outcome.next.inj h
  rw [State.setCycles_cpu, plp_iWindow, pull_eq]
  rfl

/-- Settles O14: the window is SEI's, CLI's or PLP's, or `exec_acts` says that no action sets it. -/
theorem latencyWindows : Obligations.LatencyWindows := by
  unfold Obligations.LatencyWindows
  intro i s t h
  by_cases hi : i = .sei ∨ i = .cli ∨ i = .plp
  · rcases hi with rfl | rfl | rfl
    · cases h; exact (if_pos (.inl rfl)).symm
    · cases h; exact (if_pos (.inr (.inl rfl))).symm
    · simpa [flagI] using execPlp_iWindow h
  · obtain ⟨hsei, hcli, hplp⟩ : i ≠ .sei ∧ i ≠ .cli ∧ i ≠ .plp := by simpa only [not_or] using hi
    rw [if_neg (by simp [hsei, hcli, hplp])]
    exact exec_iWindow_of_ne h hi

end Sys2Proof.Machine
end

section
/-! SUPPORT. A fetch reads the bytes that decode to the instruction it runs (R25, R76, R282, R283, R290). -/

namespace Sys2Proof.Machine

theorem mapNext_mapNext (f g : State → State) (o : Outcome) : mapNext g (mapNext f o) = mapNext (fun t => g (f t)) o := by
  cases o <;> rfl

theorem readBytes_zero (s : State) : readBytes 0 s = ([], s) := rfl

theorem readBytes_succ (n : Nat) (s : State) : readBytes (n + 1) s =
    ((fetchByte s).1 :: (readBytes n (fetchByte s).2).1, (readBytes n (fetchByte s).2).2) := by
  simp only [readBytes, fetchByte, busRead_cpu]

theorem length_readBytes (n : Nat) (s : State) : (readBytes n s).1.length = n := by
  induction n generalizing s with
  | zero => rfl
  | succ n ih => rw [readBytes_succ, List.length_cons, ih]

/-- What it means that a byte string is one instruction: its row of the matrix, and the operand bytes (R100, R118). -/
theorem decode_cons_eq_ok {op : Byte} {rest : List Byte} {i : Instr} (h : decode (op :: rest) = .ok (i, [])) :
    (opcodeRow op = .implied i ∧ rest = []) ∨ (opcodeRow op = .padded i ∧ rest.length = 1) ∨
    (∃ f b, opcodeRow op = .byte f ∧ rest = [b] ∧ i = f b) ∨
    (∃ f lo hi, opcodeRow op = .word f ∧ rest = [lo, hi] ∧ i = f (mkWord hi lo)) := by
  dsimp only [decode] at h
  split at h
  · rename_i hrow; cases h; exact .inl ⟨hrow, rfl⟩
  · rename_i hrow; cases h; exact .inr (.inl ⟨hrow, rfl⟩)
  · rename_i hrow; cases h; exact .inr (.inr (.inl ⟨_, _, hrow, rfl, rfl⟩))
  · rename_i hrow; cases h; exact .inr (.inr (.inr ⟨_, _, _, hrow, rfl, rfl⟩))
  all_goals cases h

/-- A fetch gives the instruction that the bytes at PC decode to, and leaves the state that reading them leaves; of BRK it
reads the opcode alone (R254). -/
theorem fetchInstr_of_decode {n : Nat} {s : State} {i : Instr} {pad : List Byte}
    (hn : i = .brk → n = 1) (hpad : pad.length = if i = .brk then 1 else 0)
    (hd : decode ((readBytes n s).1 ++ pad) = .ok (i, [])) : fetchInstr s = (i, (readBytes n s).2) := by
  have hnil : i ≠ .brk → pad = [] := fun hi => List.length_eq_zero_iff.1 (hpad.trans (if_neg hi))
  cases n with
  | zero =>
    rw [hnil fun hi => absurd (hn hi) (by decide)] at hd
    cases hd
  | succ n =>
    rw [readBytes_succ, List.cons_append] at hd
    have hlen := length_readBytes n (fetchByte s).2
    have hmakes := opcodeRow_makes (fetchByte s).1
    rw [readBytes_succ]
    unfold fetchInstr
    dsimp only
    rcases decode_cons_eq_ok hd with ⟨hrow, hrest⟩ | ⟨hrow, -⟩ | ⟨f, b, hrow, hrest, rfl⟩ | ⟨f, lo, hi, hrow, hrest, rfl⟩
    · obtain rfl : n = 0 := by rw [← hlen, (List.append_eq_nil_iff.1 hrest).1]; rfl
      rw [hrow]
      rfl
    · rw [hrow] at hmakes
      obtain rfl : n = 0 := by have := hn hmakes.1; omega
      rw [hrow]
      rfl
    · rw [hrow] at hmakes
      rw [hnil (hmakes b).2, List.append_nil] at hrest
      obtain rfl : n = 1 := by rw [← hlen, hrest]; rfl
      obtain rfl : (fetchByte (fetchByte s).2).1 = b := by simpa [readBytes_succ, readBytes_zero] using hrest
      rw [hrow, readBytes_succ]
      rfl
    · rw [hrow] at hmakes
      rw [hnil (hmakes _).2, List.append_nil] at hrest
      obtain rfl : n = 2 := by rw [← hlen, hrest]; rfl
      obtain ⟨rfl, rfl⟩ : (fetchByte (fetchByte s).2).1 = lo ∧ (fetchByte (fetchByte (fetchByte s).2).2).1 = hi := by
        simpa [readBytes_succ, readBytes_zero] using hrest
      rw [hrow, readBytes_succ, readBytes_succ]
      rfl

theorem irqLine_setIWindow (w : Option Bool) (s : State) : (s.setIWindow w).irqLine = s.irqLine := rfl

/-- A step at a boundary that fetches (R282, R290). -/
theorem step_of_fetchesNext {s : State} (h : s.FetchesNext) :
    step s = mapNext (fun t => devicesTick (countDown t.forceU)) (fetch (s.setIWindow none)) := by
  obtain ⟨⟨hclk, hdma, hdmc, hcyc⟩, hnmi, hirq⟩ := h
  have hb : boundary s = mapNext State.forceU (fetch (s.setIWindow none)) := by
    unfold boundary
    dsimp only
    rw [if_neg (by simp [hnmi]), if_neg (by rw [irqLine_setIWindow, hirq]; decide)]
  have hc : cpuClock s = mapNext countDown (boundary s) := by
    rw [cpuClock, if_pos hclk, cpuTick, if_neg (by simp [hdma]), if_neg (by simp [hdmc]), if_pos hcyc]
  rw [step, masterTick, hc, hb, mapNext_mapNext, mapNext_mapNext]

/-- Settles O5: the boundary fetches, and the fetch reads the bytes that decode to `i`. -/
theorem stepRunsDecodedInstruction : Obligations.StepRunsDecodedInstruction := by
  unfold Obligations.StepRunsDecodedInstruction
  intro s u i bytes pad hs hr hpad hd
  obtain rfl : (readBytes _ _).1 = bytes := congrArg Prod.fst hr
  obtain rfl : (readBytes _ _).2 = u := congrArg Prod.snd hr
  rw [step_of_fetchesNext hs, fetch, fetchInstr_of_decode (fun hi => if_pos hi) hpad hd]

end Sys2Proof.Machine
end

section
/-! SUPPORT. What reset leaves (R43 to R46, R350, R560). -/

namespace Sys2Proof.Machine

/-- A vector is read from the cartridge alone, and reading it changes nothing (R75, R498). -/
theorem readWord_high (s : State) {a : Word} (h : 0x6000 ≤ a) (h' : 0x6000 ≤ a + 1) :
    readWord a s = (mkWord (busRead (a + 1) s).1 (busRead a s).1, s) := by
  unfold readWord
  dsimp only
  rw [busRead_high a s h, busRead_high (a + 1) s h']

/-- Reset, in full (R560). -/
theorem busReset_eq (s : State) :
    let u : State := { s with cart := s.cart.map Cartridge.reset }
    busReset s = { u with
      cpu := .reset (mkWord (busRead 0xFFFD u).1 (busRead 0xFFFC u).1)
      ppu := .reset s.ppu.palette s.ppu.oam s.ppu.framebuffer
      ctrl := .reset s.ctrl.buttons0 s.ctrl.buttons1
      apu := .reset
      sysclk := 0
      busConflicts := 0 } := by
  intro u
  have hv : readWord vectorReset u = (mkWord (busRead 0xFFFD u).1 (busRead 0xFFFC u).1, u) :=
    readWord_high u (a := 0xFFFC) (by decide) (by decide)
  unfold busReset
  dsimp only
  rw [hv]

theorem Cartridge.mapperIrq_reset (c : Cartridge) : c.reset.mapperIrq = false := by
  unfold Cartridge.reset Cartridge.mapperIrq
  cases c.mapperId <;> rfl

/-- No source asserts the IRQ line after reset (R37, R549). -/
theorem irqLine_busReset (s : State) : (busReset s).irqLine = false := by
  rw [busReset_eq]
  unfold State.irqLine
  cases s.cart with
  | none => rfl
  | some c => exact c.mapperIrq_reset

/-- A mapper's reset keeps the bytes of the cartridge's arrays (R549). -/
theorem cartCells_of_reset {s t : State} (h : t.cart = s.cart.map Cartridge.reset) (i : Nat) :
    t.cell (.prgRam i) = s.cell (.prgRam i) ∧ t.cell (.prgRom i) = s.cell (.prgRom i) ∧
      t.cell (.chr i) = s.cell (.chr i) := by
  unfold State.cell
  dsimp only
  rw [h]
  cases s.cart <;> exact ⟨rfl, rfl, rfl⟩

/-- Settles O15: every value stands in `busReset_eq`, the IRQ line and the cartridge's cells apart. -/
theorem busResetValues : Obligations.BusResetValues := by
  unfold Obligations.BusResetValues
  intro s
  have hirq := irqLine_busReset s
  have hcells := cartCells_of_reset (congrArg State.cart (busReset_eq s))
  dsimp only
  rw [busReset_eq] at hirq hcells ⊢
  exact ⟨rfl, rfl, rfl, rfl, rfl, rfl, rfl, rfl, rfl, rfl, rfl, rfl, rfl, rfl, rfl, rfl, rfl, rfl, hirq, rfl, rfl, rfl,
    rfl, rfl, rfl, rfl, rfl, fun i => (hcells i).1, fun i => (hcells i).2.1, fun i => (hcells i).2.2⟩

end Sys2Proof.Machine
end

section
/-! SUPPORT. A tick of the CPU that waits (R76, R281, R282), and that no tick stops under `UNOFFICIAL_POLICY = nop`
(R71, R121, R267, R298). -/

namespace Sys2Proof.Machine

/-! ## Waiting -/

theorem step_of_cpuClock {s t : State} (h : cpuClock s = .next t) : step s = .next (devicesTick t) := by
  rw [step, masterTick, h, mapNext_next]

theorem cpuClock_off_tick {s : State} (h : s.sysclk % 3 ≠ 0) : cpuClock s = .next s := if_neg h

theorem cpuClock_on_tick {s : State} (h : s.sysclk % 3 = 0) : cpuClock s = cpuTick s := if_pos h

/-- Execute (R282). -/
theorem cpuTick_execute {s : State} (hdma : s.cpu.dmaActive = false)
    (hdmc : s.cpu.dmcFetchPending = false) (hcycles : s.cpu.cycles ≠ 0) : cpuTick s = .next (countDown s) := by
  rw [cpuTick, if_neg (by simp [hdma]), if_neg (by simp [hdmc]), if_neg hcycles]

/-- Settles O7: off the CPU's tick the CPU does nothing, and in Execute its tick is `countDown`. -/
theorem cpuWaits : Obligations.CpuWaits := by
  unfold Obligations.CpuWaits
  intro s
  constructor
  · intro hclk
    exact step_of_cpuClock (cpuClock_off_tick hclk)
  · intro hclk hdma hdmc hcycles
    exact step_of_cpuClock ((cpuClock_on_tick hclk).trans (cpuTick_execute hdma hdmc hcycles))

/-! ## Going on -/

theorem branchIf_goesOn (taken : Bool) (off : Byte) (s : State) : ∃ t, branchIf taken off s = .next t := by
  unfold branchIf
  cases taken <;> exact ⟨_, rfl⟩

theorem unofficial_goesOn {s : State} (op : Byte) (len : Word) (n : Nat) (cls : AccessClass)
    (mode : State → Located) (h : s.cfg.unofficialPolicy = .nop) : ∃ t, unofficial op len n cls mode s = .next t := by
  unfold unofficial
  rw [h]
  exact ⟨_, rfl⟩

/-- The one instruction whose meaning can stop is the catch-all of R266 and R267, on its own opcode and length; every
other ends by `finish`. -/
theorem exec_goesOn_or_unofficial (i : Instr) :
    (∀ s, ∃ t, exec i s = .next t) ∨
      ∃ n cls mode, ∀ s, exec i s = unofficial i.opcode (BitVec.ofNat 16 i.byteLength) n cls mode s := by
  cases i
  case bcc | bcs | beq | bne | bmi | bpl | bvc | bvs => exact .inl fun _ => branchIf_goesOn _ _ _
  case jam02 | sloIzx | unop04 | sloZp0 | anc0B | unop0C | sloAbs | jam12 | sloIzy | unop14 | sloZpx | unop1A | sloAby |
      unop1C | sloAbx | jam22 | rlaIzx | rlaZp0 | anc2B | rlaAbs | jam32 | rlaIzy | unop34 | rlaZpx | unop3A | rlaAby |
      unop3C | rlaAbx | jam42 | sreIzx | unop44 | sreZp0 | alr | sreAbs | jam52 | sreIzy | unop54 | sreZpx | unop5A |
      sreAby | unop5C | sreAbx | jam62 | rraIzx | unop64 | rraZp0 | arr | rraAbs | jam72 | rraIzy | unop74 | rraZpx |
      unop7A | rraAby | unop7C | rraAbx | unop80 | unop82 | saxIzx | saxZp0 | unop89 | ane | saxAbs | jam92 | shaIzy |
      saxZpy | tas | shy | shx | shaAby | laxIzx | laxZp0 | lxa | laxAbs | jamB2 | laxIzy | laxZpy | las | laxAby |
      unopC2 | dcpIzx | dcpZp0 | sbx | dcpAbs | jamD2 | dcpIzy | unopD4 | dcpZpx | unopDA | dcpAby | unopDC | dcpAbx |
      unopE2 | iscIzx | iscZp0 | usbc | iscAbs | jamF2 | iscIzy | unopF4 | iscZpx | unopFA | iscAby | unopFC | iscAbx =>
    exact .inr ⟨_, _, _, fun _ => rfl⟩
  all_goals exact .inl fun _ => ⟨_, rfl⟩

theorem exec_goesOn (i : Instr) {s : State} (h : s.cfg.unofficialPolicy = .nop) : ∃ t, exec i s = .next t := by
  obtain hall | ⟨n, cls, mode, hi⟩ := exec_goesOn_or_unofficial i
  · exact hall s
  · rw [hi]
    exact unofficial_goesOn _ _ n cls mode h

/-- A fetch goes on: every opcode has a row, and reading the bytes changes no parameter (R71, R121). -/
theorem fetch_goesOn {s : State} (h : s.cfg.unofficialPolicy = .nop) : ∃ t, fetch s = .next t := by
  have hcfg : (fetchInstr s).2.cfg = s.cfg := (fetchInstr_acts (W := False) s).cfg
  show ∃ t, exec (fetchInstr s).1 (fetchInstr s).2 = .next t
  exact exec_goesOn (fetchInstr s).1 (by rw [hcfg, h])

theorem mapNext_goesOn {o : Outcome} (f : State → State) (h : ∃ t, o = .next t) : ∃ t, mapNext f o = .next t := by
  obtain ⟨t, rfl⟩ := h
  exact ⟨f t, rfl⟩

theorem boundary_goesOn {s : State} (h : s.cfg.unofficialPolicy = .nop) : ∃ t, boundary s = .next t := by
  apply mapNext_goesOn
  split
  · exact ⟨_, rfl⟩
  · split
    · exact ⟨_, rfl⟩
    · exact fetch_goesOn h

theorem cpuTick_goesOn {s : State} (h : s.cfg.unofficialPolicy = .nop) : ∃ t, cpuTick s = .next t := by
  unfold cpuTick
  split
  · exact ⟨_, rfl⟩
  split
  · exact ⟨_, rfl⟩
  split
  · exact mapNext_goesOn countDown (boundary_goesOn h)
  · exact ⟨_, rfl⟩

/-- Settles O6: only a fetch can stop, and under the nop policy it goes on. -/
theorem noStepStopsUnderNopPolicy : Obligations.NoStepStopsUnderNopPolicy := by
  unfold Obligations.NoStepStopsUnderNopPolicy
  intro s h
  apply mapNext_goesOn
  unfold cpuClock
  split
  · exact cpuTick_goesOn h
  · exact ⟨s, rfl⟩

end Sys2Proof.Machine
end

section
/-! SUPPORT. The dispatch of the CPU bus, range by range (R67, R70 to R75, R498, R499). -/

namespace Sys2Proof.Machine

section Ranges

variable (s : State) {a : Word} (v : Byte)

theorem storedAt_busWrite (a : Word) : StoredAt (storedCell a s) v s (busWrite a v s) := busWrite_cell a v s

/-! ## RAM (R72) -/

theorem storedCell_ram (h : a < 0x2000) : storedCell a s = some (.ram (a.toNat % 2048)) := by
  rw [storedCell, if_pos h, ramIndex_eq]

/-! ## The PPU's registers (R73) -/

theorem busRead_ppu (h : 0x2000 ≤ a) (h' : a < 0x4000) : busRead a s =
    ((s.ppu.readReg s.cart (field a 0 3)).1, { s with ppu := (s.ppu.readReg s.cart (field a 0 3)).2 }) := by
  rw [busRead_low s (by bv_omega), deviceRead, if_neg (by bv_omega), if_pos h']

theorem busWrite_ppu (h : 0x2000 ≤ a) (h' : a < 0x4000) :
    busWrite a v s = s.applyPpu (s.ppu.writeReg s.cfg s.cart (field a 0 3) v) := by
  rw [busWrite_low v s (by bv_omega), deviceWrite, if_neg (by bv_omega), if_pos h']

/-- The address of the register that an address in $2000 to $3FFF mirrors. -/
def ppuRegAddr (a : Word) : Word := BitVec.ofNat 16 (8192 + a.toNat % 8)

theorem toNat_ppuRegAddr (a : Word) : (ppuRegAddr a).toNat = 8192 + a.toNat % 8 := by
  rw [ppuRegAddr, BitVec.toNat_ofNat]
  omega

theorem ppuRegAddr_range (a : Word) : 0x2000 ≤ ppuRegAddr a ∧ ppuRegAddr a < 0x4000 := by
  rw [BitVec.le_def, BitVec.lt_def, toNat_ppuRegAddr, show (0x2000 : Word).toNat = 8192 from rfl,
    show (0x4000 : Word).toNat = 16384 from rfl]
  omega

/-- Mirrors name the same register. -/
theorem field_ppuRegAddr (a : Word) : (field (ppuRegAddr a) 0 3 : BitVec 3) = field a 0 3 := by
  apply BitVec.eq_of_toNat_eq
  rw [toNat_field, toNat_field, toNat_ppuRegAddr]
  omega

theorem busRead_ppuRegAddr (h : 0x2000 ≤ a) (h' : a < 0x4000) : busRead a s = busRead (ppuRegAddr a) s := by
  obtain ⟨hlo, hhi⟩ := ppuRegAddr_range a
  rw [busRead_ppu s h h', busRead_ppu s hlo hhi, field_ppuRegAddr]

theorem busWrite_ppuRegAddr (h : 0x2000 ≤ a) (h' : a < 0x4000) : busWrite a v s = busWrite (ppuRegAddr a) v s := by
  obtain ⟨hlo, hhi⟩ := ppuRegAddr_range a
  rw [busWrite_ppu s v h h', busWrite_ppu s v hlo hhi, field_ppuRegAddr]

/-! ## The APU's write-only registers and the unclaimed window (R74, R75) -/

/-- Between the PPU and the cartridge a read is answered at $4015 to $4017 alone. -/
theorem busRead_unclaimed (h : 0x4000 ≤ a) (h' : a < 0x6000) (hreg : a ≤ 0x4014 ∨ 0x4018 ≤ a) :
    busRead a s = (0, s) := by
  rw [busRead_low s h', deviceRead, if_neg (by bv_omega), if_neg (by bv_omega), if_neg (by bv_omega),
    if_neg (by bv_omega), if_neg (by bv_omega)]

theorem busWrite_unclaimed (h : 0x4018 ≤ a) (h' : a < 0x6000) : busWrite a v s = s := by
  rw [busWrite_low v s h', deviceWrite, if_neg (by bv_omega), if_neg (by bv_omega), if_neg (by bv_omega),
    if_neg (by bv_omega), if_neg (by bv_omega), if_neg (by bv_omega), if_neg (by bv_omega)]

/-! ## The cartridge's window (R75, R498, R499) -/

theorem busRead_no_cart (h : 0x6000 ≤ a) (hc : s.cart = none) : busRead a s = (0, s) := by
  rw [busRead_high a s h, hc]

theorem busWrite_no_cart (h : 0x6000 ≤ a) (hc : s.cart = none) : busWrite a v s = s := by
  unfold busWrite
  rw [hc]
  exact deviceWrite_high v s h

variable {s} {c : Cartridge}

theorem busRead_prgRam (hc : s.cart = some c) (h : 0x6000 ≤ a) (h' : a < 0x8000) :
    busRead a s = (s.cell (.prgRam (a.toNat - 0x6000)), s) := by
  have hoff : (a - 0x6000).toNat = a.toNat - 0x6000 := BitVec.toNat_sub_of_le h
  have hread : c.cpuRead a = some (Store.read c.prgRam (a.toNat - 0x6000)) := by
    rw [Cartridge.cpuRead, Cartridge.cpuMapRead, if_neg (BitVec.not_lt.2 h), if_pos h', hoff]
    rfl
  simp [busRead_high a s h, State.cell, hc, hread]

theorem busRead_prgRom (hc : s.cart = some c) (h : 0x8000 ≤ a) :
    busRead a s = (s.cell (.prgRom (c.prgOffset a)), s) := by
  have hread : c.cpuRead a = some (Store.read c.prgRom (c.prgOffset a)) := by
    rw [Cartridge.cpuRead, Cartridge.cpuMapRead, if_neg (by bv_omega), if_neg (by bv_omega)]
    rfl
  simp [busRead_high a s (by bv_omega), State.cell, hc, hread]

theorem storedCell_prgRam (hc : s.cart = some c) (h : 0x6000 ≤ a) (h' : a < 0x8000) :
    storedCell a s = some (.prgRam (a.toNat - 0x6000)) := by
  have hoff : (a - 0x6000).toNat = a.toNat - 0x6000 := BitVec.toNat_sub_of_le h
  rw [storedCell, if_neg (by bv_omega), if_neg (by bv_omega), if_pos ⟨h, h', by rw [hc]; rfl⟩, hoff]

/-- No write from $8000 on reaches a memory cell: PRG-ROM keeps its bytes (R499). -/
theorem storedCell_prgRom (h : 0x8000 ≤ a) : storedCell a s = none := by
  have hram : ¬ a < 0x8000 := BitVec.not_lt.2 h
  rw [storedCell, if_neg (by bv_omega), if_neg (by bv_omega), if_neg fun hw => hram hw.2.1]

end Ranges

/-- Settles O44, range by range: the reads by the `busRead` laws above, and what a write stores by `busWrite_cell` at
the range's `storedCell`. -/
theorem busDispatch : Obligations.BusDispatch := by
  unfold Obligations.BusDispatch
  intro s a v
  have hstored := storedAt_busWrite s v a
  refine ⟨?ram, ?ppu, ?apu, ?window, ?noCart, ?prgRam, ?prgRom⟩
  case ram =>
    intro h
    rw [storedCell_ram s h] at hstored
    refine ⟨?_, ?_, hstored⟩
    · rw [busRead_ram s h, ramIndex_eq]
      rfl
    · rw [busWrite_ram v s h]
  case ppu => exact fun h h' => ⟨busRead_ppuRegAddr s h h', busWrite_ppuRegAddr s v h h'⟩
  case apu => exact fun h h' => busRead_unclaimed s h (by bv_omega) (.inl h')
  case window => exact fun h h' => ⟨busRead_unclaimed s (by bv_omega) h' (.inr h), busWrite_unclaimed s v h h'⟩
  case noCart => exact fun h hc => ⟨busRead_no_cart s h hc, busWrite_no_cart s v h hc⟩
  case prgRam =>
    intro c hc h h'
    rw [storedCell_prgRam hc h h'] at hstored
    exact ⟨busRead_prgRam hc h h', hstored⟩
  case prgRom =>
    intro c hc h
    rw [storedCell_prgRom h] at hstored
    exact ⟨busRead_prgRom hc h, hstored⟩

end Sys2Proof.Machine
end

section
/-! SUPPORT. The round trips of the decoder and the encoder, through the row of the matrix that an opcode selects (R100,
R118, R121, R254). -/

/-! ## Every instruction has its row -/

namespace Sys2Proof.Laws.RowSelected

/-- The statement made for each constructor, for all of them. -/
theorem statement (i : Instr) : Statement i :=
  i.casesOn (motive := Statement)
    oraIzx sloIzx unop04 oraZp0 aslZp0 sloZp0 oraImm anc0B unop0C oraAbs aslAbs sloAbs bpl oraIzy sloIzy unop14
    oraZpx aslZpx sloZpx oraAby sloAby unop1C oraAbx aslAbx sloAbx jsr andIzx rlaIzx bitZp0 andZp0 rolZp0 rlaZp0
    andImm anc2B bitAbs andAbs rolAbs rlaAbs bmi andIzy rlaIzy unop34 andZpx rolZpx rlaZpx andAby rlaAby unop3C
    andAbx rolAbx rlaAbx eorIzx sreIzx unop44 eorZp0 lsrZp0 sreZp0 eorImm alr jmpAbs eorAbs lsrAbs sreAbs bvc
    eorIzy sreIzy unop54 eorZpx lsrZpx sreZpx eorAby sreAby unop5C eorAbx lsrAbx sreAbx adcIzx rraIzx unop64
    adcZp0 rorZp0 rraZp0 adcImm arr jmpInd adcAbs rorAbs rraAbs bvs adcIzy rraIzy unop74 adcZpx rorZpx rraZpx
    adcAby rraAby unop7C adcAbx rorAbx rraAbx unop80 staIzx unop82 saxIzx styZp0 staZp0 stxZp0 saxZp0 unop89 ane
    styAbs staAbs stxAbs saxAbs bcc staIzy shaIzy styZpx staZpx stxZpy saxZpy staAby tas shy staAbx shx shaAby
    ldyImm ldaIzx ldxImm laxIzx ldyZp0 ldaZp0 ldxZp0 laxZp0 ldaImm lxa ldyAbs ldaAbs ldxAbs laxAbs bcs ldaIzy
    laxIzy ldyZpx ldaZpx ldxZpy laxZpy ldaAby las ldyAbx ldaAbx ldxAby laxAby cpyImm cmpIzx unopC2 dcpIzx cpyZp0
    cmpZp0 decZp0 dcpZp0 cmpImm sbx cpyAbs cmpAbs decAbs dcpAbs bne cmpIzy dcpIzy unopD4 cmpZpx decZpx dcpZpx
    cmpAby dcpAby unopDC cmpAbx decAbx dcpAbx cpxImm sbcIzx unopE2 iscIzx cpxZp0 sbcZp0 incZp0 iscZp0 sbcImm
    usbc cpxAbs sbcAbs incAbs iscAbs beq sbcIzy iscIzy unopF4 sbcZpx incZpx iscZpx sbcAby iscAby unopFC sbcAbx
    incAbx iscAbx brk jam02 php aslImp jam12 clc unop1A jam22 plp rolImp jam32 sec unop3A rti jam42 pha lsrImp
    jam52 cli unop5A rts jam62 pla rorImp jam72 sei unop7A dey txa jam92 tya txs tay tax jamB2 clv tsx iny dex
    jamD2 cld unopDA inx nop jamF2 sed unopFA

end Sys2Proof.Laws.RowSelected

namespace Sys2Proof

open Machine (mkWord_hi8_lo8 lo8_mkWord hi8_mkWord)

/-! ## What the decoder answers for each kind of row -/

section Rows

variable {op : Byte}

theorem decode_implied {i : Instr} (h : opcodeRow op = .implied i) (rest : List Byte) :
    decode (op :: rest) = .ok (i, rest) := by
  simp only [decode, h]

theorem decode_padded {i : Instr} (h : opcodeRow op = .padded i) (pad : Byte) (rest : List Byte) :
    decode (op :: pad :: rest) = .ok (i, rest) := by
  simp only [decode, h]

theorem decode_byte {f : Byte → Instr} (h : opcodeRow op = .byte f) (b : Byte) (rest : List Byte) :
    decode (op :: b :: rest) = .ok (f b, rest) := by
  simp only [decode, h]

theorem decode_word {f : Word → Instr} (h : opcodeRow op = .word f) (lo hi : Byte) (rest : List Byte) :
    decode (op :: lo :: hi :: rest) = .ok (f (mkWord hi lo), rest) := by
  simp only [decode, h]

/-- A string that ends inside its opcode's operand bytes is rejected (log entry 20). -/
theorem decode_truncated {rest : List Byte} (h : rest.length < (opcodeRow op).operandBytes) :
    decode (op :: rest) = .error (.truncated op) := by
  cases hrow : opcodeRow op with
  | implied i => simp [hrow, Row.operandBytes] at h
  | padded i | byte f =>
    obtain rfl : rest = [] := by simpa [hrow, Row.operandBytes] using h
    simp only [decode, hrow]
  | word f =>
    match rest, hrow ▸ h with
    | [], _ | [_], _ => simp only [decode, hrow]

/-- Whatever decodes does so by one of the four kinds of row. -/
theorem decode_cons_cases {bytes rest : List Byte} {i : Instr} (h : decode (op :: bytes) = .ok (i, rest)) :
    (opcodeRow op = .implied i ∧ bytes = rest) ∨ (opcodeRow op = .padded i ∧ ∃ pad, bytes = pad :: rest) ∨
    (∃ f b, opcodeRow op = .byte f ∧ i = f b ∧ bytes = b :: rest) ∨
    (∃ f lo hi, opcodeRow op = .word f ∧ i = f (mkWord hi lo) ∧ bytes = lo :: hi :: rest) := by
  dsimp only [decode] at h
  split at h
  next hrow => cases h; exact .inl ⟨hrow, rfl⟩
  next hrow => cases h; exact .inr (.inl ⟨hrow, _, rfl⟩)
  next hrow => cases h; exact .inr (.inr (.inl ⟨_, _, hrow, rfl, rfl⟩))
  next hrow => cases h; exact .inr (.inr (.inr ⟨_, _, _, hrow, rfl, rfl⟩))
  all_goals cases h

end Rows

/-! ## The round trips -/

/-- Settles O1: the opcode selects the instruction's row, and the row's operand bytes are the instruction's own. -/
theorem decodeEncodeRoundTrip : Obligations.DecodeEncodeRoundTrip := by
  unfold Obligations.DecodeEncodeRoundTrip
  intro i rest
  have hrow := Laws.RowSelected.statement i
  unfold Laws.RowSelected.Statement at hrow
  split at hrow
  next hsel =>
    obtain ⟨rfl, henc⟩ := hrow
    rw [henc]
    exact decode_implied hsel rest
  next hsel =>
    obtain ⟨rfl, henc⟩ := hrow
    rw [henc]
    exact decode_padded hsel 0 rest
  next hsel =>
    obtain ⟨b, hi, henc⟩ := hrow
    rw [henc]
    exact (decode_byte hsel b rest).trans (by rw [hi])
  next hsel =>
    obtain ⟨w, hi, henc⟩ := hrow
    rw [henc]
    exact (decode_word hsel (lo8 w) (hi8 w) rest).trans (by rw [mkWord_hi8_lo8, hi])

/-- Settles O2: the row that the first byte selects makes only instructions of that opcode and those operand bytes. -/
theorem encodeDecodeRoundTrip : Obligations.EncodeDecodeRoundTrip := by
  unfold Obligations.EncodeDecodeRoundTrip
  intro bytes rest i h
  cases bytes with
  | nil => cases h
  | cons op bytes =>
    have hmakes := opcodeRow_makes op
    rcases decode_cons_cases h with ⟨hsel, rfl⟩ | ⟨hsel, pad, rfl⟩ | ⟨f, b, hsel, rfl, rfl⟩ | ⟨f, lo, hi, hsel, rfl, rfl⟩
    all_goals rw [hsel] at hmakes
    · obtain ⟨henc, -⟩ := hmakes
      exact .inl (by rw [henc]; rfl)
    · obtain ⟨rfl, rfl⟩ := hmakes
      exact .inr ⟨rfl, pad, rfl⟩
    · obtain ⟨henc, -⟩ := hmakes b
      exact .inl (by rw [henc]; rfl)
    · obtain ⟨henc, -⟩ := hmakes (mkWord hi lo)
      exact .inl (by rw [henc, lo8_mkWord, hi8_mkWord]; rfl)

/-! ## The length of an instruction -/

theorem opcode_byteLength_of_encode {i : Instr} {op : Byte} {operand : List Byte} (h : encode i = op :: operand) :
    i.opcode = op ∧ i.byteLength = 1 + operand.length := by
  rw [Instr.opcode, Instr.byteLength, h]
  exact ⟨rfl, Nat.add_comm _ _⟩

theorem Instr.byteLength_le (i : Instr) : i.byteLength ≤ 3 := by
  have hrow := Laws.RowSelected.statement i
  unfold Laws.RowSelected.Statement at hrow
  unfold byteLength
  split at hrow
  · simp [hrow.2]
  · simp [hrow.2]
  · obtain ⟨b, -, henc⟩ := hrow
    simp [henc]
  · obtain ⟨w, -, henc⟩ := hrow
    simp [henc]

theorem Row.operandBytes_le (r : Row) : r.operandBytes ≤ 2 := by
  cases r <;> simp [Row.operandBytes]

/-- With its row's operand bytes there, an opcode decodes to an instruction of that opcode and that length (R121). -/
theorem exists_decode {op : Byte} {rest : List Byte} (h : (opcodeRow op).operandBytes ≤ rest.length) :
    ∃ i, decode (op :: rest) = .ok (i, rest.drop (opcodeRow op).operandBytes) ∧ i.opcode = op ∧
      i.byteLength = 1 + (opcodeRow op).operandBytes := by
  have hmakes := opcodeRow_makes op
  cases hsel : opcodeRow op with
  | implied i =>
    rw [hsel] at hmakes
    exact ⟨i, decode_implied hsel rest, opcode_byteLength_of_encode hmakes.1⟩
  | padded i =>
    rw [hsel] at hmakes h
    obtain ⟨rfl, rfl⟩ := hmakes
    match rest, h with
    | pad :: rest, _ => exact ⟨.brk, decode_padded hsel pad rest, rfl, rfl⟩
  | byte f =>
    rw [hsel] at hmakes h
    match rest, h with
    | b :: rest, _ => exact ⟨f b, decode_byte hsel b rest, opcode_byteLength_of_encode (hmakes b).1⟩
  | word f =>
    rw [hsel] at hmakes h
    match rest, h with
    | lo :: hi :: rest, _ =>
      exact ⟨f (mkWord hi lo), decode_word hsel lo hi rest, opcode_byteLength_of_encode (hmakes _).1⟩

/-- Settles O3: the row's count of operand bytes is the length that the opcode fixes. -/
theorem opcodeAloneFixesLength : Obligations.OpcodeAloneFixesLength := by
  unfold Obligations.OpcodeAloneFixesLength
  refine ⟨fun op => ⟨(opcodeRow op).operandBytes, Row.operandBytes_le _, fun rest => ?_⟩, rfl⟩
  exact ⟨exists_decode, decode_truncated⟩

/-! ## Written words -/

/-- Settles O4: each word is an encoding, which decodes to its instruction; BRK's word has a padding byte of its own. -/
theorem writtenWordsDecode : Obligations.WrittenWordsDecode := by
  unfold Obligations.WrittenWordsDecode
  have h (i : Instr) : decode (encode i) = .ok (i, []) := by simpa using decodeEncodeRoundTrip i []
  exact ⟨h (.ldaImm 0x05), h (.staZp0 0x00), h (.ldaAbx 0x20FF), h (.adcAbx 0x1234), h (.sbcIzy 0x80),
    h (.cmpIzx 0x7F), h (.bne 0xF0), h .php, h .sei, h (.jmpInd 0x02FF), h (.jsr 0x9000), h (.stxZpy 0x10),
    h (.unop1C 0x20FF), decode_padded rfl 0x55 [], h (.ldaZpx 0x10), h (.ldaAby 0x0300), h .nop⟩

end Sys2Proof
end

section
/-! SUPPORT. Where the addressing modes point, and which dummy reads they perform (R104 to R113). -/

namespace Sys2Proof.Machine

/-! ## Page zero (R105, R110, R111) -/

theorem toNat_zext16_add (z i : Byte) : (zext16 (z + i)).toNat = (z.toNat + i.toNat) % 256 := by
  rw [toNat_zext16, BitVec.toNat_add]

/-- A pointer is two bytes of page zero; `n` is its address before the wrap. -/
theorem zeroPagePointer_toNat {z : Byte} {n : Nat} (s : State) (h : z.toNat = n % 256) :
    (zeroPagePointer z s).1.toNat =
      (s.cell (.ram (n % 256))).toNat + 256 * (s.cell (.ram ((n + 1) % 256))).toNat := by
  have hsucc : (z + 1).toNat = (n + 1) % 256 := by rw [toNat_add_one]; omega
  rw [zeroPagePointer_eq, toNat_mkWord, h, hsucc, Nat.mul_comm, Nat.add_comm]
  rfl

/-! ## The indexed modes (R108, R111) -/

section Indexed

variable (cls : AccessClass) (base : Word) (i : Byte) (s : State)

theorem indexed_ea_toNat : (indexed cls base i s).ea.toNat = (base.toNat + i.toNat) % 65536 := toNat_add_zext16 i base

theorem indexed_crossed : (indexed cls base i s).crossed = true ↔
    (indexed cls base i s).ea.toNat / 256 ≠ base.toNat / 256 := hi8_bne_iff _ base

/-- The address without the carry: the index is added within the page (R112). -/
theorem mkWord_hi8_lo8_add : mkWord (hi8 base) (lo8 base + i) =
    BitVec.ofNat 16 (base.toNat / 256 * 256 + (base.toNat + i.toNat) % 256) := by
  apply BitVec.eq_of_toNat_eq
  rw [toNat_mkWord, toNat_hi8, BitVec.toNat_add, toNat_lo8, BitVec.toNat_ofNat]
  omega

/-- Which indexed accesses read the uncarried address first (R112, R113). -/
theorem dummyReads_iff (cfg : Config) (crossed : Bool) : dummyReads cfg cls crossed = true ↔
    cls = .readModifyWrite ∨ crossed = true ∨ (cls = .write ∧ cfg.writeDummyAlways = true) := by
  cases cls <;> simp [dummyReads]

theorem indexed_st : (indexed cls base i s).st =
    if cls = .readModifyWrite ∨ (indexed cls base i s).crossed = true ∨
        (cls = .write ∧ s.cfg.writeDummyAlways = true) then
      (busRead (BitVec.ofNat 16 (base.toNat / 256 * 256 + (base.toNat + i.toNat) % 256)) s).2
    else s := by
  rw [← mkWord_hi8_lo8_add]
  exact if_congr (dummyReads_iff cls s.cfg _) rfl rfl

end Indexed

/-! ## The obligations -/

/-- Settles O20: ABX, ABY and IZY are `indexed` at their base, and a pointer is two bytes of page zero. -/
theorem addressingModes : Obligations.AddressingModes := by
  unfold Obligations.AddressingModes
  intro s cls z w x y ram p base
  refine ⟨⟨toNat_zext16 z, rfl⟩, ⟨toNat_zext16_add z _, rfl⟩, ⟨toNat_zext16_add z _, rfl⟩, ⟨rfl, rfl⟩,
    ⟨indexed_ea_toNat .., indexed_crossed ..⟩, ⟨indexed_ea_toNat .., indexed_crossed ..⟩, ⟨?izx, rfl⟩, ?izy⟩
  case izx => exact zeroPagePointer_toNat s (BitVec.toNat_add z s.cpu.x)
  case izy =>
    have hbase : (zeroPagePointer z s).1.toNat = base := zeroPagePointer_toNat s (Nat.mod_eq_of_lt z.isLt).symm
    rw [zeroPagePointer_eq] at hbase
    rw [atIzy_eq, ← hbase]
    exact ⟨indexed_ea_toNat .., indexed_crossed ..⟩

/-- Settles O21: ABX, ABY and IZY are `indexed` at their base, and every other mode leaves the state that its pointer
reads leave, which for page zero is the state before them. -/
theorem Located.dummyReads : Obligations.DummyReads := by
  unfold Obligations.DummyReads
  intro s cls z w after
  refine ⟨indexed_st .., indexed_st .., ?izy, rfl, rfl, rfl, rfl, ?izx, ?ind⟩
  case izy =>
    rw [atIzy_eq, ← toNat_add_one]
    exact indexed_st ..
  case izx => rw [atIzx, zeroPagePointer_eq]
  case ind =>
    rw [← mkWord_hi8_lo8_add_one]
    rfl

end Sys2Proof.Machine
end

section
/-! SUPPORT. The stop of `UNOFFICIAL_POLICY = refuse` (R266): which instructions have the catch-all's meaning, and that
every other goes on. -/

namespace Sys2Proof.Machine

/-! ## Which instructions are unofficial -/

/-- The meaning of an instruction is the catch-all of R266 and R267, on its own opcode and length. -/
def IsCatchAll (i : Instr) : Prop :=
  ∃ n cls mode, ∀ s, exec i s = unofficial i.opcode (BitVec.ofNat 16 i.byteLength) n cls mode s

theorem isCatchAll_of_mem (imm z : Byte) (w : Word) : ∀ i ∈ unofficialInstrs imm z w, IsCatchAll i := by
  simp only [unofficialInstrs, List.forall_mem_append, List.forall_mem_cons, List.not_mem_nil, false_implies,
    implies_true, and_true]
  and_intros
  all_goals exact ⟨_, _, _, fun _ => rfl⟩

/-- The opcodes of the unofficial rows (R120). -/
def unofficialOpcodes : List Byte := (unofficialInstrs 0 0 0).map Instr.opcode

/-- An instruction that can stop has an unofficial opcode: every legal one ends by `finish`. -/
theorem exec_goesOn_or_unofficialOpcode (i : Instr) :
    (∀ s, ∃ t, exec i s = .next t) ∨ unofficialOpcodes.contains i.opcode = true := by
  cases i
  case jam02 | sloIzx | unop04 | sloZp0 | anc0B | unop0C | sloAbs | jam12 | sloIzy | unop14 | sloZpx | unop1A | sloAby |
      unop1C | sloAbx | jam22 | rlaIzx | rlaZp0 | anc2B | rlaAbs | jam32 | rlaIzy | unop34 | rlaZpx | unop3A | rlaAby |
      unop3C | rlaAbx | jam42 | sreIzx | unop44 | sreZp0 | alr | sreAbs | jam52 | sreIzy | unop54 | sreZpx | unop5A |
      sreAby | unop5C | sreAbx | jam62 | rraIzx | unop64 | rraZp0 | arr | rraAbs | jam72 | rraIzy | unop74 | rraZpx |
      unop7A | rraAby | unop7C | rraAbx | unop80 | unop82 | saxIzx | saxZp0 | unop89 | ane | saxAbs | jam92 | shaIzy |
      saxZpy | tas | shy | shx | shaAby | laxIzx | laxZp0 | lxa | laxAbs | jamB2 | laxIzy | laxZpy | las | laxAby |
      unopC2 | dcpIzx | dcpZp0 | sbx | dcpAbs | jamD2 | dcpIzy | unopD4 | dcpZpx | unopDA | dcpAby | unopDC | dcpAbx |
      unopE2 | iscIzx | iscZp0 | usbc | iscAbs | jamF2 | iscIzy | unopF4 | iscZpx | unopFA | iscAby | unopFC | iscAbx =>
    exact .inr rfl
  case bcc | bcs | beq | bne | bmi | bpl | bvc | bvs => exact .inl fun _ => branchIf_goesOn _ _ _
  all_goals exact .inl fun _ => ⟨_, rfl⟩

/-! ## The stop -/

theorem unofficial_refuse {s : State} (op : Byte) (len : Word) (n : Nat) (cls : AccessClass) (mode : State → Located)
    (h : s.cfg.unofficialPolicy = .refuse) :
    unofficial op len n cls mode s = .refused (.unofficialOpcode op (s.cpu.pc - len)) := by
  rw [unofficial, h]

theorem sub_ofNat_eq (pc : Word) {n : Nat} (h : n ≤ 3) :
    pc - BitVec.ofNat 16 n = BitVec.ofNat 16 (pc.toNat + 65536 - n) := by
  apply BitVec.eq_of_toNat_eq
  rw [BitVec.toNat_sub, BitVec.toNat_ofNat, BitVec.toNat_ofNat]
  omega

theorem exec_eq_refused {i : Instr} {s : State} (hi : IsCatchAll i) (h : s.cfg.unofficialPolicy = .refuse) :
    exec i s = .refused (.unofficialOpcode i.opcode (BitVec.ofNat 16 (s.cpu.pc.toNat + 65536 - i.byteLength))) := by
  obtain ⟨n, cls, mode, hexec⟩ := hi
  rw [hexec, unofficial_refuse _ _ n cls mode h, sub_ofNat_eq _ i.byteLength_le]

theorem policy_of_exec_eq_refused {i : Instr} {s : State} {r : Refusal} (hr : exec i s = .refused r) :
    s.cfg.unofficialPolicy = .refuse := by
  cases hp : s.cfg.unofficialPolicy with
  | refuse => rfl
  | nop =>
    obtain ⟨t, ht⟩ := exec_goesOn i hp
    cases ht.symm.trans hr

/-- Settles O43: the unofficial rows have the catch-all's meaning, and an instruction that stops is one of them. -/
theorem unofficialRefused : Obligations.UnofficialRefused := by
  unfold Obligations.UnofficialRefused
  constructor
  · intro s imm z w h i hi
    exact exec_eq_refused (isCatchAll_of_mem imm z w i hi) h
  · intro i s r hr
    refine ⟨policy_of_exec_eq_refused hr, ?_⟩
    rcases exec_goesOn_or_unofficialOpcode i with hall | hop
    · obtain ⟨t, ht⟩ := hall s
      cases ht.symm.trans hr
    · exact List.contains_iff_mem.1 hop

end Sys2Proof.Machine
end

section
/-! SUPPORT. Loads, stores and transfers (R140 to R152): what a form that reads an operand, or stores a register, leaves
of the state before it. -/

namespace Sys2Proof.Machine

/-! ## The forms that read an operand (R103, R115, R117) -/

/-- A form answers what `g` makes of its operand M, on a state that differs from `s` by reads only. -/
structure ReadForm.Performs (g : Byte → State → State) (s : State) (f : ReadForm) : Prop where
  opcode : f.i.opcode = f.op
  exec_eq : exec f.i s = .next ((g f.m f.after).setCycles f.cycles)
  onlyRead : OnlyRead s f.after

section ReadForms

variable {g : Byte → State → State} {op : Byte} {i : Instr} {s : State}

theorem ReadForm.Performs.imm {b : Byte} (hop : i.opcode = op) (hx : exec i s = onImm 2 g b s) :
    (ReadForm.imm op i b s).Performs g s := ⟨hop, hx, .refl s⟩

theorem ReadForm.Performs.mem {n : Nat} {l : Located} (hl : OnlyRead s l.st) (hop : i.opcode = op)
    (hx : exec i s = readAt n g l) : (ReadForm.mem op i n l).Performs g s :=
  ⟨hop, hx.trans (readAt_eq n g l), hl.trans (onlyRead_busRead _ _)⟩

end ReadForms

/-! ## Loading a register (R141 to R143, R147 to R151) -/

/-- `g` puts its byte into the register that `reg` writes, and N and Z follow it. -/
def LoadsInto (reg : Byte → Cpu → Cpu) (g : Byte → State → State) : Prop :=
  ∀ m s, g m s = { s with cpu := { reg m s.cpu with p := setNZ m s.cpu.p } }

theorem loadsInto_loadA : LoadsInto (fun m c => { c with a := m }) loadA := fun _ _ => rfl
theorem loadsInto_loadX : LoadsInto (fun m c => { c with x := m }) loadX := fun _ _ => rfl
theorem loadsInto_loadY : LoadsInto (fun m c => { c with y := m }) loadY := fun _ _ => rfl

section Loading

variable {reg : Byte → Cpu → Cpu} {g : Byte → State → State} {s : State}

theorem LoadsInto.setCycles_eq (hg : LoadsInto reg g) (m : Byte) (n : Nat) (s : State) : (g m s).setCycles n =
    { s with cpu := { reg m s.cpu with p := setNZ m s.cpu.p, cycles := n } } := by
  rw [hg m s]
  rfl

/-- Every form of a load: the register takes M, N and Z follow it, and no memory cell changes. -/
theorem LoadsInto.of_performs (hg : LoadsInto reg g) {fs : List ReadForm} (h : ∀ f ∈ fs, f.Performs g s) :
    ∀ f ∈ fs, f.i.opcode = f.op ∧ ∃ t, exec f.i s = .next t ∧
      t = { f.after with cpu := { reg f.m s.cpu with p := t.cpu.p, cycles := f.cycles } } ∧
      FlagsNZ f.m t.cpu.p ∧ SameFlagsBut 0x82 s.cpu.p t.cpu.p ∧ SameMemory s t := by
  intro f hf
  obtain ⟨hop, hx, hread⟩ := h f hf
  rw [hg.setCycles_eq, hread.cpu] at hx
  exact ⟨hop, _, hx, rfl, flagsNZ_setNZ _ _, sameFlagsBut_setNZ _ _, fun c =>
    (cell_withCpu _ _ c).trans (hread.cell c)⟩

/-- A transfer is a load of another register's value. -/
theorem LoadsInto.transfer (hg : LoadsInto reg g) (i : Instr) {op m : Byte} (hop : i.opcode = op)
    (hx : exec i s = finish 2 (g m s)) :
    i.opcode = op ∧ ∃ t, exec i s = .next t ∧ t = { s with cpu := { reg m s.cpu with cycles := 2, p := t.cpu.p } } ∧
      FlagsNZ m t.cpu.p ∧ SameFlagsBut 0x82 s.cpu.p t.cpu.p := by
  rw [finish_eq, hg.setCycles_eq] at hx
  exact ⟨hop, _, hx, rfl, flagsNZ_setNZ _ _, sameFlagsBut_setNZ _ _⟩

end Loading

/-! ## Storing a register (R144 to R146) -/

/-- A form writes the register `reg` at its effective address, which its addressing mode found by reads only. -/
structure Form.StoresReg (reg : Cpu → Byte) (s : State) (f : Form) : Prop where
  onlyRead : OnlyRead s f.l.st
  opcode : f.i.opcode = f.op
  exec_eq : exec f.i s = writeAt f.n (fun u => reg u.cpu) f.l

theorem sameRegisters_busWrite (a : Word) (v : Byte) (s : State) : SameRegisters s.cpu (busWrite a v s).cpu :=
  ⟨busWrite_a a v s, busWrite_x a v s, busWrite_y a v s, busWrite_sp a v s, busWrite_pc a v s, busWrite_iWindow a v s⟩

/-- A write after reads, and then a new cycle count, changes the cell it reaches and no other. -/
theorem storedAt_write_of_onlyRead {s u : State} (h : OnlyRead s u) (a : Word) (v : Byte) (n : Nat) :
    StoredAt (storedCell a u) v s ((busWrite a v u).setCycles n) := by
  intro c
  rw [← h.cell c]
  exact (cell_withCpu _ _ c).trans (storedAt_busWrite u v a c)

/-- Every form of a store: one write, and of the registers and flags nothing changes. -/
theorem Form.StoresReg.of_forall {reg : Cpu → Byte} {s : State} {fs : List Form} (h : ∀ f ∈ fs, f.StoresReg reg s) :
    ∀ f ∈ fs, f.i.opcode = f.op ∧ ∃ t, exec f.i s = .next t ∧
      t = { busWrite f.l.ea (reg s.cpu) f.l.st with
        cpu := { (busWrite f.l.ea (reg s.cpu) f.l.st).cpu with cycles := f.n } } ∧
      StoredAt (storedCell f.l.ea f.l.st) (reg s.cpu) s t ∧ SameRegisters s.cpu t.cpu ∧ t.cpu.p = s.cpu.p := by
  intro f hf
  obtain ⟨hread, hop, hx⟩ := h f hf
  have hregs := sameRegisters_busWrite f.l.ea (reg s.cpu) f.l.st
  have hp := busWrite_p f.l.ea (reg s.cpu) f.l.st
  rw [writeAt_eq, hread.cpu] at hx
  rw [hread.cpu] at hregs hp
  exact ⟨hop, _, hx, rfl, storedAt_write_of_onlyRead hread _ _ _, hregs, hp⟩

/-! ## The obligations -/

/-- Settles O22: each form reads M and performs the load of its register. -/
theorem loads : Obligations.Loads := by
  unfold Obligations.Loads
  intro s imm z w
  refine ⟨loadsInto_loadA.of_performs ?lda, loadsInto_loadX.of_performs ?ldx, loadsInto_loadY.of_performs ?ldy⟩ <;>
    simp only [List.forall_mem_cons, List.not_mem_nil, false_implies, implies_true, and_true]
  case lda =>
    exact ⟨.imm rfl rfl, .mem (.refl s) rfl rfl, .mem (.refl s) rfl rfl, .mem (.refl s) rfl rfl,
      .mem (onlyRead_atAbx _ w s) rfl rfl, .mem (onlyRead_atAby _ w s) rfl rfl, .mem (onlyRead_atIzx z s) rfl rfl,
      .mem (onlyRead_atIzy _ z s) rfl rfl⟩
  case ldx =>
    exact ⟨.imm rfl rfl, .mem (.refl s) rfl rfl, .mem (.refl s) rfl rfl, .mem (.refl s) rfl rfl,
      .mem (onlyRead_atAby _ w s) rfl rfl⟩
  case ldy =>
    exact ⟨.imm rfl rfl, .mem (.refl s) rfl rfl, .mem (.refl s) rfl rfl, .mem (.refl s) rfl rfl,
      .mem (onlyRead_atAbx _ w s) rfl rfl⟩

/-- Settles O23: each form writes its register at the address its mode yields. -/
theorem stores : Obligations.Stores := by
  unfold Obligations.Stores
  intro s z w
  refine List.forall_mem_cons.2 ⟨Form.StoresReg.of_forall (reg := Cpu.a) ?sta, List.forall_mem_cons.2
    ⟨Form.StoresReg.of_forall (reg := Cpu.x) ?stx, List.forall_mem_singleton.2
    (Form.StoresReg.of_forall (reg := Cpu.y) ?sty)⟩⟩ <;>
    simp only [List.forall_mem_cons, List.not_mem_nil, false_implies, implies_true, and_true]
  case sta =>
    exact ⟨⟨.refl s, rfl, rfl⟩, ⟨.refl s, rfl, rfl⟩, ⟨.refl s, rfl, rfl⟩, ⟨onlyRead_atAbx _ w s, rfl, rfl⟩,
      ⟨onlyRead_atAby _ w s, rfl, rfl⟩, ⟨onlyRead_atIzx z s, rfl, rfl⟩, ⟨onlyRead_atIzy _ z s, rfl, rfl⟩⟩
  case stx => exact ⟨⟨.refl s, rfl, rfl⟩, ⟨.refl s, rfl, rfl⟩, ⟨.refl s, rfl, rfl⟩⟩
  case sty => exact ⟨⟨.refl s, rfl, rfl⟩, ⟨.refl s, rfl, rfl⟩, ⟨.refl s, rfl, rfl⟩⟩

/-- Settles O24: a transfer loads a register with another's value, and TXS writes SP alone. -/
theorem transfers : Obligations.Transfers := by
  unfold Obligations.Transfers
  intro s
  refine ⟨?_, rfl, rfl⟩
  simp only [List.forall_mem_cons, List.not_mem_nil, false_implies, implies_true, and_true]
  exact ⟨loadsInto_loadX.transfer .tax rfl rfl, loadsInto_loadY.transfer .tay rfl rfl,
    loadsInto_loadA.transfer .txa rfl rfl, loadsInto_loadA.transfer .tya rfl rfl,
    loadsInto_loadX.transfer .tsx rfl rfl⟩

end Sys2Proof.Machine
end

section
/-! SUPPORT. The forms that set A and P (R171 to R175, R186): what ADC, SBC, AND, ORA, EOR and BIT make of M. -/

namespace Sys2Proof.Machine

/-! ## The accumulator's addressing modes (R118) -/

/-- The seven memory modes that every operation on A and M has, the immediate mode apart (R118). -/
def accumulatorModes (z : Byte) (w : Word) (s : State) : List Located :=
  [atZp0 z s, atZpx z s, atAbs w s, atAbx .read w s, atAby .read w s, atIzx z s, atIzy .read z s]

theorem onlyRead_accumulatorModes (z : Byte) (w : Word) (s : State) :
    ∀ l ∈ accumulatorModes z w s, OnlyRead s l.st := by
  simp only [accumulatorModes, List.forall_mem_cons, List.not_mem_nil, false_implies, implies_true, and_true]
  exact ⟨.refl s, .refl s, .refl s, onlyRead_atAbx _ w s, onlyRead_atAby _ w s, onlyRead_atIzx z s,
    onlyRead_atIzy _ z s⟩

/-- Forms of the immediate mode and the seven memory modes perform `g` when each has its opcode and the meaning that `g`
gives it. -/
theorem ReadForm.performs_of_accumulatorModes (z : Byte) (w : Word) {s : State} {fs : List ReadForm}
    {g : Byte → State → State}
    (hafter : fs.map ReadForm.after = s :: (accumulatorModes z w s).map fun l => (busRead l.ea l.st).2)
    (hop : fs.map (·.i.opcode) = fs.map ReadForm.op)
    (hexec : fs.map (exec ·.i s) = fs.map fun f => .next ((g f.m f.after).setCycles f.cycles)) :
    ∀ f ∈ fs, f.Performs g s := by
  intro f hf
  have hmem : f.after ∈ s :: (accumulatorModes z w s).map fun l => (busRead l.ea l.st).2 :=
    hafter ▸ List.mem_map_of_mem hf
  refine ⟨List.map_inj_left.1 hop f hf, List.map_inj_left.1 hexec f hf, ?_⟩
  rcases List.mem_cons.1 hmem with himm | hmode
  · exact himm ▸ .refl s
  · obtain ⟨l, hl, hread⟩ := List.mem_map.1 hmode
    exact hread ▸ (onlyRead_accumulatorModes z w s l hl).trans (onlyRead_busRead _ _)

/-! ## Setting A and P -/

/-- `g` gives A and P what `f` makes of A, M and P. -/
def SetsAP (f : Byte → Byte → Byte → Byte × Byte) (g : Byte → State → State) : Prop :=
  ∀ m s, g m s = { s with cpu := { s.cpu with a := (f s.cpu.a m s.cpu.p).1, p := (f s.cpu.a m s.cpu.p).2 } }

theorem setsAP_arithA (f : Byte → Byte → Byte → Byte × Byte) : SetsAP f (arithA f) := fun _ _ => rfl

theorem setsAP_logicA (op : Byte → Byte → Byte) : SetsAP (fun a m p => (op a m, setNZ (op a m) p)) (logicA op) :=
  fun _ _ => rfl

theorem setsAP_bitTest : SetsAP (fun a m p => (a, bitTestP a m p)) bitTest := fun _ _ => rfl

/-- A form that sets A and P goes on, changes nothing else of the CPU but the cycle count, and no memory cell. -/
theorem ReadForm.Performs.goesOn {f : Byte → Byte → Byte → Byte × Byte} {g : Byte → State → State} {s : State}
    {r : ReadForm} (h : r.Performs g s) (hg : SetsAP f g) :
    r.i.opcode = r.op ∧ ∃ t, exec r.i s = .next t ∧
      t = { r.after with cpu := { s.cpu with a := t.cpu.a, p := t.cpu.p, cycles := r.cycles } } ∧
      t.cpu.a = (f s.cpu.a r.m s.cpu.p).1 ∧ t.cpu.p = (f s.cpu.a r.m s.cpu.p).2 ∧ SameMemory s t := by
  obtain ⟨hop, hx, hread⟩ := h
  rw [hg, hread.cpu] at hx
  exact ⟨hop, _, hx, rfl, rfl, rfl, fun c => (cell_withCpu _ _ c).trans (hread.cell c)⟩

/-! ## Subtraction is addition of the one's complement (R172) -/

section Subtraction

variable (a m p : Byte)

theorem toNat_add_toNat_not (c : Bool) : c.toNat + (!c).toNat = 1 := by cases c <;> rfl

theorem bit7_xor_ff : bit (m ^^^ 0xFF) 7 = !bit m 7 := by simp [bit]

theorem subWithBorrow_toNat : (subWithBorrow a m p).1.toNat =
    (256 + a.toNat - m.toNat - (!flagC p).toNat) % 256 := by
  have hm := m.isLt
  have hc := toNat_add_toNat_not (flagC p)
  rw [subWithBorrow, addWithCarry_toNat, toNat_xor_ff]
  omega

theorem subWithBorrow_carry :
    flagC (subWithBorrow a m p).2 = true ↔ m.toNat + (!flagC p).toNat ≤ a.toNat := by
  have hm := m.isLt
  have hc := toNat_add_toNat_not (flagC p)
  rw [subWithBorrow, addWithCarry_carry, toNat_xor_ff]
  omega

theorem subWithBorrow_overflow : flagV (subWithBorrow a m p).2 = true ↔
    bit a 7 ≠ bit m 7 ∧ bit (subWithBorrow a m p).1 7 ≠ bit a 7 := by
  rw [subWithBorrow, addWithCarry_overflow, bit7_xor_ff, Bool.eq_not]

end Subtraction

/-! ## AND, ORA and EOR work bit by bit (R173 to R175) -/

/-- A form of an operation that combines A and M bit by bit. -/
theorem ReadForm.Performs.bitwise {op : Byte → Byte → Byte} {b : Bool → Bool → Bool}
    (hbit : ∀ a m i, bit (op a m) i = b (bit a i) (bit m i)) {s : State} {f : ReadForm} (h : f.Performs (logicA op) s) :
    f.i.opcode = f.op ∧ ∃ t, exec f.i s = .next t ∧
      t = { f.after with cpu := { s.cpu with a := t.cpu.a, p := t.cpu.p, cycles := f.cycles } } ∧
      (∀ i, i < 8 → bit t.cpu.a i = b (bit s.cpu.a i) (bit f.m i)) ∧
      FlagsNZ t.cpu.a t.cpu.p ∧ SameFlagsBut 0x82 s.cpu.p t.cpu.p ∧ SameMemory s t := by
  obtain ⟨hop, t, hx, ht, ha, hp, hmem⟩ := h.goesOn (setsAP_logicA op)
  refine ⟨hop, t, hx, ht, ?_⟩
  rw [ha, hp]
  exact ⟨fun i _ => hbit _ _ i, flagsNZ_setNZ .., sameFlagsBut_setNZ _ _, hmem⟩

/-! ## BIT's flags (R186) -/

section BitTest

variable (a m p : Byte)

theorem and_eq_zero_iff_forall_bit : a &&& m = 0 ↔ ∀ i, i < 8 → (bit a i && bit m i) = false := by
  have hbit (i : Nat) : bit (a &&& m) i = (bit a i && bit m i) := BitVec.getLsbD_and
  constructor
  · intro h i _
    rw [← hbit, h]
    exact BitVec.getLsbD_zero
  · intro h
    exact BitVec.eq_of_getLsbD_eq fun i hi => ((hbit i).trans (h i hi)).trans BitVec.getLsbD_zero.symm

theorem flagZ_bitTestP : flagZ (bitTestP a m p) = true ↔ ∀ i, i < 8 → (bit a i && bit m i) = false := by
  rw [← and_eq_zero_iff_forall_bit]
  simp [bitTestP, flagZ, bit_setV, bit_setN, bit_setZ]

theorem flagN_bitTestP : flagN (bitTestP a m p) = bit m 7 := by simp [bitTestP, flagN, bit_setV, bit_setN]

theorem flagV_bitTestP : flagV (bitTestP a m p) = bit m 6 := flagV_setV _ _

theorem sameFlagsBut_bitTestP : SameFlagsBut 0xC2 p (bitTestP a m p) := by
  simp only [bitTestP, sameFlagsBut_iff, bit_setV, bit_setN, bit_setZ]
  simp [bit]

end BitTest

/-! ## The obligations -/

/-- Settles O25: every form sets A and P as `addWithCarry` says. -/
theorem adcAddsWithCarry : Obligations.AdcAddsWithCarry := by
  unfold Obligations.AdcAddsWithCarry
  intro s imm z w f hf
  have hperf : f.Performs (arithA addWithCarry) s := ReadForm.performs_of_accumulatorModes z w rfl rfl rfl f hf
  obtain ⟨hop, t, hx, ht, ha, hp, hmem⟩ := hperf.goesOn (setsAP_arithA _)
  refine ⟨hop, t, hx, ht, ?_⟩
  rw [ha, hp]
  exact ⟨addWithCarry_toNat .., addWithCarry_carry .., addWithCarry_overflow .., addWithCarry_flagsNZ ..,
    addWithCarry_sameFlags _ _ _, hmem⟩

/-- Settles O26: every form sets A and P as `subWithBorrow` says, which adds the one's complement. -/
theorem sbcSubtractsWithBorrow : Obligations.SbcSubtractsWithBorrow := by
  unfold Obligations.SbcSubtractsWithBorrow
  intro s imm z w f hf
  have hperf : f.Performs (arithA subWithBorrow) s := ReadForm.performs_of_accumulatorModes z w rfl rfl rfl f hf
  obtain ⟨hop, t, hx, ht, ha, hp, hmem⟩ := hperf.goesOn (setsAP_arithA _)
  refine ⟨hop, t, hx, ht, ?_⟩
  rw [ha, hp]
  exact ⟨subWithBorrow_toNat .., subWithBorrow_carry .., subWithBorrow_overflow .., addWithCarry_flagsNZ ..,
    addWithCarry_sameFlags _ _ _, hmem⟩

/-- Settles O27: a bit of the words' AND, OR and XOR is that of the two bits. -/
theorem logic : Obligations.Logic := by
  unfold Obligations.Logic
  intro s imm z w
  refine List.forall_mem_cons.2 ⟨?and, List.forall_mem_cons.2 ⟨?or, List.forall_mem_singleton.2 ?eor⟩⟩
  case and =>
    exact fun f hf => ReadForm.Performs.bitwise (op := (· &&& ·)) (fun _ _ _ => BitVec.getLsbD_and)
      (ReadForm.performs_of_accumulatorModes z w rfl rfl rfl f hf)
  case or =>
    exact fun f hf => ReadForm.Performs.bitwise (op := (· ||| ·)) (fun _ _ _ => BitVec.getLsbD_or)
      (ReadForm.performs_of_accumulatorModes z w rfl rfl rfl f hf)
  case eor =>
    exact fun f hf => ReadForm.Performs.bitwise (op := (· ^^^ ·)) (fun _ _ _ => BitVec.getLsbD_xor)
      (ReadForm.performs_of_accumulatorModes z w rfl rfl rfl f hf)

/-- Settles O31: both forms set P as `bitTestP` says and keep A. -/
theorem ReadForm.bitTest : Obligations.BitTest := by
  unfold Obligations.BitTest
  intro s z w f hf
  have hperf : f.Performs Machine.bitTest s := by
    revert f
    exact List.forall_mem_cons.2 ⟨.mem (.refl s) rfl rfl, List.forall_mem_singleton.2 (.mem (.refl s) rfl rfl)⟩
  obtain ⟨hop, t, hx, ht, ha, hp, hmem⟩ := hperf.goesOn setsAP_bitTest
  refine ⟨hop, t, hx, ?_, ?_⟩
  · rw [ha] at ht
    exact ht
  · rw [hp]
    exact ⟨flagZ_bitTestP .., flagN_bitTestP .., flagV_bitTestP .., sameFlagsBut_bitTestP _ _ _, hmem⟩

end Sys2Proof.Machine
end

section
/-! SUPPORT. Increments, shifts and rotates (R176 to R185): the rule each obeys, on memory, on A and on an index. -/

namespace Sys2Proof.Machine

/-! ## The rules of the bytes -/

/-- `f`'s result and C obey the rule `R`, N and Z follow the result, and the other flags stay. -/
def Implements (f : Byte → Byte → Byte × Byte) (R : ShiftRule) : Prop :=
  ∀ m p, R m (flagC p) (f m p).1 (flagC (f m p).2) ∧ FlagsNZ (f m p).1 (f m p).2 ∧ SameFlagsBut 0x83 p (f m p).2

theorem incByte_implements : Implements incByte fun m c r c' => r.toNat = (m.toNat + 1) % 256 ∧ c' = c := by
  intro m p
  obtain ⟨hr, hc, hnz, hsame⟩ := incByte_spec p m
  exact ⟨⟨hr, hc⟩, hnz, hsame.widen⟩

theorem decByte_implements : Implements decByte fun m c r c' => r.toNat = (m.toNat + 255) % 256 ∧ c' = c := by
  intro m p
  obtain ⟨hr, hc, hnz, hsame⟩ := decByte_spec p m
  exact ⟨⟨hr, hc⟩, hnz, hsame.widen⟩

theorem aslByte_implements : Implements aslByte fun m _ r c' => r.toNat = 2 * m.toNat % 256 ∧ c' = bit m 7 :=
  fun m p => and_assoc.2 (aslByte_spec p m)

theorem lsrByte_implements : Implements lsrByte fun m _ r c' => r.toNat = m.toNat / 2 ∧ c' = bit m 0 :=
  fun m p => and_assoc.2 (lsrByte_spec p m)

theorem rolByte_implements :
    Implements rolByte fun m c r c' => r.toNat = (2 * m.toNat + c.toNat) % 256 ∧ c' = bit m 7 :=
  fun m p => and_assoc.2 (rolByte_spec p m)

theorem rorByte_implements :
    Implements rorByte fun m c r c' => r.toNat = m.toNat / 2 + 128 * c.toNat ∧ c' = bit m 0 :=
  fun m p => and_assoc.2 (rorByte_spec p m)

/-! ## The write of the unmodified byte (R114) -/

theorem SameRegisters.trans {c d e : Cpu} (h : SameRegisters c d) (h' : SameRegisters d e) : SameRegisters c e := by
  obtain ⟨ha, hx, hy, hsp, hpc, hw⟩ := h
  obtain ⟨ha', hx', hy', hsp', hpc', hw'⟩ := h'
  exact ⟨ha'.trans ha, hx'.trans hx, hy'.trans hy, hsp'.trans hsp, hpc'.trans hpc, hw'.trans hw⟩

theorem OnlyRead.sameRegisters {s u : State} (h : OnlyRead s u) : SameRegisters s.cpu u.cpu := by
  rw [h.cpu]
  exact ⟨rfl, rfl, rfl, rfl, rfl, rfl⟩

/-- `u` after the write of the unmodified byte that `RMW_DUMMY_WRITE` adds in `s` (R114). -/
def dummyWritten (s : State) (a : Word) (m : Byte) (u : State) : State :=
  if s.cfg.rmwDummyWrite = true then busWrite a m u else u

section DummyWrite

variable {s u : State} (h : OnlyRead s u) (a : Word) (m : Byte)
include h

theorem dummyWritten_p : (dummyWritten s a m u).cpu.p = s.cpu.p := by
  unfold dummyWritten
  split
  · rw [busWrite_p, h.cpu]
  · rw [h.cpu]

theorem dummyWritten_sameRegisters : SameRegisters s.cpu (dummyWritten s a m u).cpu := by
  unfold dummyWritten
  split
  · exact h.sameRegisters.trans (sameRegisters_busWrite a m u)
  · exact h.sameRegisters

theorem dummyWritten_memory :
    if s.cfg.rmwDummyWrite = true then StoredAt (storedCell a u) m s (dummyWritten s a m u)
    else SameMemory s (dummyWritten s a m u) := by
  unfold dummyWritten
  split
  · exact fun c => h.cell c ▸ storedAt_busWrite u m a c
  · exact h.cell

end DummyWrite

/-! ## The forms on memory (R114, R176, R177, R182 to R185) -/

/-- A form replaces the byte at its effective address, which its addressing mode found by reads only. -/
structure Form.Modifies (f : Byte → Byte → Byte × Byte) (s : State) (m : Form) : Prop where
  onlyRead : OnlyRead s m.l.st
  opcode : m.i.opcode = m.op
  exec_eq : exec m.i s = modifyAt m.n f m.l

theorem modifyAt_eq_dummyWritten {s : State} {l : Located} (h : OnlyRead s l.st) (n : Nat)
    (f : Byte → Byte → Byte × Byte) : modifyAt n f l =
      let m := (busRead l.ea l.st).1
      let v := dummyWritten s l.ea m (busRead l.ea l.st).2
      .next (((busWrite l.ea (f m s.cpu.p).1 v).setP (f m s.cpu.p).2).setCycles n) := by
  have hread := h.trans (onlyRead_busRead l.ea l.st)
  dsimp only
  rw [← dummyWritten_p hread l.ea (busRead l.ea l.st).1, dummyWritten, ← hread.cfg]
  exact modifyAt_eq n f l

/-- Every form of a read-modify-write operation: the optional write of M and the write of the result, and the flags of
the rule. -/
theorem Implements.onMemory {f : Byte → Byte → Byte × Byte} {R : ShiftRule} (hf : Implements f R) {s : State}
    {form : Form} (h : form.Modifies f s) :
    let m := (busRead form.l.ea form.l.st).1
    let u := (busRead form.l.ea form.l.st).2
    let v := if s.cfg.rmwDummyWrite = true then busWrite form.l.ea m u else u
    form.i.opcode = form.op ∧ ∃ t r, exec form.i s = .next t ∧ R m (flagC s.cpu.p) r (flagC t.cpu.p) ∧
      t = { busWrite form.l.ea r v with
        cpu := { (busWrite form.l.ea r v).cpu with p := t.cpu.p, cycles := form.n } } ∧
      FlagsNZ r t.cpu.p ∧ SameFlagsBut 0x83 s.cpu.p t.cpu.p ∧ SameRegisters s.cpu t.cpu ∧
      StoredAt (storedCell form.l.ea v) r v t ∧
      (if s.cfg.rmwDummyWrite = true then StoredAt (storedCell form.l.ea u) m s v else SameMemory s v) := by
  obtain ⟨hmode, hop, hx⟩ := h
  intro m u v
  have hread : OnlyRead s u := hmode.trans (onlyRead_busRead _ _)
  have hregs : SameRegisters s.cpu v.cpu := dummyWritten_sameRegisters hread _ m
  obtain ⟨hR, hnz, hsame⟩ := hf m s.cpu.p
  exact ⟨hop, _, (f m s.cpu.p).1, hx.trans (modifyAt_eq_dummyWritten hmode _ f), hR, rfl, hnz, hsame,
    hregs.trans (sameRegisters_busWrite _ _ v), fun c => (cell_withCpu _ _ c).trans (storedAt_busWrite v _ _ c),
    dummyWritten_memory hread _ m⟩

/-- The four modes of a read-modify-write operation on memory (R118) only read. -/
theorem Form.modifies_of_modes (z : Byte) (w : Word) {f : Byte → Byte → Byte × Byte} {s : State} {fs : List Form}
    (hmode : fs.map Form.l = [atZp0 z s, atZpx z s, atAbs w s, atAbx .readModifyWrite w s])
    (hop : fs.map (·.i.opcode) = fs.map Form.op)
    (hexec : fs.map (exec ·.i s) = fs.map fun m => modifyAt m.n f m.l) : ∀ m ∈ fs, m.Modifies f s := by
  intro m hm
  have honly : ∀ l ∈ [atZp0 z s, atZpx z s, atAbs w s, atAbx .readModifyWrite w s], OnlyRead s l.st := by
    simp only [List.forall_mem_cons, List.not_mem_nil, false_implies, implies_true, and_true]
    exact ⟨.refl s, .refl s, .refl s, onlyRead_atAbx _ w s⟩
  exact ⟨honly _ (hmode ▸ List.mem_map_of_mem hm), List.map_inj_left.1 hop m hm, List.map_inj_left.1 hexec m hm⟩

/-! ## The forms on a register (R178 to R185) -/

theorem Implements.accumulator {f : Byte → Byte → Byte × Byte} {R : ShiftRule} (hf : Implements f R) {i : Instr}
    {op : Byte} {s : State} (hop : i.opcode = op) (hx : exec i s = modifyA 2 f s) :
    i.opcode = op ∧ ∃ t, exec i s = .next t ∧ R s.cpu.a (flagC s.cpu.p) t.cpu.a (flagC t.cpu.p) ∧
      t = { s with cpu := { s.cpu with a := t.cpu.a, p := t.cpu.p, cycles := 2 } } ∧
      FlagsNZ t.cpu.a t.cpu.p ∧ SameFlagsBut 0x83 s.cpu.p t.cpu.p := by
  obtain ⟨hR, hnz, hsame⟩ := hf s.cpu.a s.cpu.p
  exact ⟨hop, _, hx, hR, rfl, hnz, hsame⟩

/-- A step of an index register is a load of its new value, which the register `get` then holds. -/
theorem LoadsInto.indexStep {reg : Byte → Cpu → Cpu} {g : Byte → State → State} (hg : LoadsInto reg g)
    {get : Cpu → Byte} (hget : ∀ m c p, get { reg m c with cycles := 2, p := p } = m) {i : Instr} {op m : Byte}
    {n : Nat} {s : State} (hop : i.opcode = op) (hx : exec i s = finish 2 (g m s)) (hm : m.toNat = n) :
    i.opcode = op ∧ ∃ t, exec i s = .next t ∧ (get t.cpu).toNat = n ∧
      t = { s with cpu := { reg (get t.cpu) s.cpu with p := t.cpu.p, cycles := 2 } } ∧
      FlagsNZ (get t.cpu) t.cpu.p ∧ SameFlagsBut 0x82 s.cpu.p t.cpu.p := by
  obtain ⟨-, t, hnext, ht, hnz, hsame⟩ := hg.transfer i hop hx
  have hreg : get t.cpu = m := (congrArg (fun u => get u.cpu) ht).trans (hget _ _ _)
  refine ⟨hop, t, hnext, ?_⟩
  rw [hreg]
  exact ⟨hm, ht, hnz, hsame⟩

/-! ## The obligations -/

/-- Settles O28: each form replaces its byte as its rule says. -/
theorem readModifyWrite : Obligations.ReadModifyWrite := by
  unfold Obligations.ReadModifyWrite
  intro s z w
  refine List.forall_mem_cons.2 ⟨?inc, List.forall_mem_cons.2 ⟨?dec, List.forall_mem_cons.2 ⟨?asl,
    List.forall_mem_cons.2 ⟨?lsr, List.forall_mem_cons.2 ⟨?rol, List.forall_mem_singleton.2 ?ror⟩⟩⟩⟩⟩
  case inc => exact fun m hm => incByte_implements.onMemory (Form.modifies_of_modes z w rfl rfl rfl m hm)
  case dec => exact fun m hm => decByte_implements.onMemory (Form.modifies_of_modes z w rfl rfl rfl m hm)
  case asl => exact fun m hm => aslByte_implements.onMemory (Form.modifies_of_modes z w rfl rfl rfl m hm)
  case lsr => exact fun m hm => lsrByte_implements.onMemory (Form.modifies_of_modes z w rfl rfl rfl m hm)
  case rol => exact fun m hm => rolByte_implements.onMemory (Form.modifies_of_modes z w rfl rfl rfl m hm)
  case ror => exact fun m hm => rorByte_implements.onMemory (Form.modifies_of_modes z w rfl rfl rfl m hm)

/-- Settles O30: on A each shift obeys the rule that it obeys on memory. -/
theorem accumulatorShifts : Obligations.AccumulatorShifts := by
  unfold Obligations.AccumulatorShifts
  intro s
  simp only [List.forall_mem_cons, List.not_mem_nil, false_implies, implies_true, and_true]
  exact ⟨aslByte_implements.accumulator rfl rfl, lsrByte_implements.accumulator rfl rfl,
    rolByte_implements.accumulator rfl rfl, rorByte_implements.accumulator rfl rfl⟩

/-- Settles O29: each form loads its index register with the next or the previous value. -/
theorem indexIncDec : Obligations.IndexIncDec := by
  unfold Obligations.IndexIncDec
  intro s
  simp only [List.forall_mem_cons, List.not_mem_nil, false_implies, implies_true, and_true]
  have hx := fun i op m n => @LoadsInto.indexStep _ _ loadsInto_loadX Cpu.x (fun _ _ _ => rfl) i op m n s
  have hy := fun i op m n => @LoadsInto.indexStep _ _ loadsInto_loadY Cpu.y (fun _ _ _ => rfl) i op m n s
  exact ⟨⟨hx .inx _ _ _ rfl rfl (toNat_add_one _), hx .dex _ _ _ rfl rfl (toNat_sub_one _)⟩,
    hy .iny _ _ _ rfl rfl (toNat_add_one _), hy .dey _ _ _ rfl rfl (toNat_sub_one _)⟩

end Sys2Proof.Machine
end

section
/-! SUPPORT. Compares (R200 to R203): the flags of a register's comparison with M, and what every form leaves. -/

namespace Sys2Proof.Machine

/-! ## A compare's flags (R200) -/

section ComparedP

variable (r m p : Byte)

theorem flagC_comparedP : flagC (comparedP r m p) = true ↔ m.toNat ≤ r.toNat := by
  rw [comparedP, flagC_setNZ, flagC_setC, decide_eq_true_iff, BitVec.le_def]

theorem flagsNZ_comparedP : FlagsNZ (r - m) (comparedP r m p) := flagsNZ_setNZ _ _

theorem flagZ_comparedP : flagZ (comparedP r m p) = true ↔ r = m :=
  (flagsNZ_comparedP r m p).2.trans sub_eq_zero

theorem flagN_comparedP : flagN (comparedP r m p) = true ↔ 128 ≤ (256 + r.toNat - m.toNat) % 256 := by
  have hdiff : (r - m).toNat = (256 + r.toNat - m.toNat) % 256 := by
    rw [BitVec.toNat_sub]
    omega
  rw [← hdiff]
  exact (flagsNZ_comparedP r m p).1

theorem sameFlagsBut_comparedP : SameFlagsBut 0x83 p (comparedP r m p) := sameFlagsBut_setNZ_setC _ _ _

end ComparedP

/-! ## The forms (R201 to R203) -/

/-- Every form of a compare of the register `reg`: P takes the comparison's flags, and no other register and no memory
cell changes. -/
theorem ReadForm.compares_of_performs {reg : Cpu → Byte} {s : State} {fs : List ReadForm}
    (h : ∀ f ∈ fs, f.Performs (compareWith fun u => reg u.cpu) s) :
    ∀ f ∈ fs, f.i.opcode = f.op ∧ ∃ t, exec f.i s = .next t ∧
      t = { f.after with cpu := { s.cpu with p := t.cpu.p, cycles := f.cycles } } ∧
      (flagC t.cpu.p = true ↔ f.m.toNat ≤ (reg s.cpu).toNat) ∧ (flagZ t.cpu.p = true ↔ reg s.cpu = f.m) ∧
      (flagN t.cpu.p = true ↔ 128 ≤ (256 + (reg s.cpu).toNat - f.m.toNat) % 256) ∧
      SameFlagsBut 0x83 s.cpu.p t.cpu.p ∧ SameMemory s t := by
  intro f hf
  obtain ⟨hop, hx, hread⟩ := h f hf
  simp only [compareWith, State.setP, State.setCycles, hread.cpu] at hx
  exact ⟨hop, _, hx, rfl, flagC_comparedP .., flagZ_comparedP .., flagN_comparedP .., sameFlagsBut_comparedP _ _ _,
    fun c => (cell_withCpu _ _ c).trans (hread.cell c)⟩

/-! ## The obligation -/

/-- Settles O32: every form reads M and sets P as `comparedP` says, from A, X or Y. -/
theorem compares : Obligations.Compares := by
  unfold Obligations.Compares
  intro s imm z w
  refine List.forall_mem_cons.2 ⟨ReadForm.compares_of_performs (reg := Cpu.a) ?cmp, List.forall_mem_cons.2
    ⟨ReadForm.compares_of_performs (reg := Cpu.x) ?cpx, List.forall_mem_singleton.2
    (ReadForm.compares_of_performs (reg := Cpu.y) ?cpy)⟩⟩
  case cmp => exact ReadForm.performs_of_accumulatorModes z w rfl rfl rfl
  case cpx | cpy =>
    simp only [List.forall_mem_cons, List.not_mem_nil, false_implies, implies_true, and_true]
    exact ⟨.imm rfl rfl, .mem (.refl s) rfl rfl, .mem (.refl s) rfl rfl⟩

end Sys2Proof.Machine
end

section
/-! SUPPORT. Branches (R106, R210 to R218): where a taken branch goes and what it costs, and what every form leaves. -/

namespace Sys2Proof.Machine

/-! ## The common rule (R210) -/

theorem toNat_add_sext16 (w : Word) (off : Byte) : (w + sext16 off).toNat =
    (w.toNat + if off.toNat < 128 then off.toNat else off.toNat + 65280) % 65536 := by
  rw [BitVec.toNat_add, toNat_sext16]

/-- One tick for the branch that is taken and one more for a target on another page. -/
theorem takenCycles_eq (u w : Word) :
    2 + 1 + (hi8 u != hi8 w).toNat = if u.toNat / 256 = w.toNat / 256 then 3 else 4 := by
  have hpage := hi8_bne_iff u w
  split
  next hsame => rw [Bool.eq_false_iff.2 (mt hpage.1 (not_not_intro hsame))]; rfl
  next hcross => rw [hpage.2 hcross]; rfl

theorem branchIf_true (off : Byte) (s : State) : branchIf true off s = .next { s with
    cpu := { s.cpu with
      pc := s.cpu.pc + sext16 off
      cycles := 2 + 1 + (hi8 (s.cpu.pc + sext16 off) != hi8 s.cpu.pc).toNat } } := rfl

theorem branchIf_false (off : Byte) (s : State) :
    branchIf false off s = .next { s with cpu := { s.cpu with cycles := 2 } } := rfl

/-! ## The forms (R211 to R218) -/

/-- Every form of a branch: `taken` is its test of P, and `cond` the condition that the test decides. -/
theorem branches_of_exec {i : Instr} {op off : Byte} {s : State} {taken : Bool} {cond : Prop} (hop : i.opcode = op)
    (hx : exec i s = branchIf taken off s) (hcond : cond ↔ taken = true) :
    let target := (s.cpu.pc.toNat + if off.toNat < 128 then off.toNat else off.toNat + 65280) % 65536
    i.opcode = op ∧ ∃ t, exec i s = .next t ∧
      t = { s with cpu := { s.cpu with pc := t.cpu.pc, cycles := t.cpu.cycles } } ∧
      (cond → t.cpu.pc.toNat = target ∧ t.cpu.cycles = if target / 256 = s.cpu.pc.toNat / 256 then 3 else 4) ∧
      (¬ cond → t.cpu.pc = s.cpu.pc ∧ t.cpu.cycles = 2) := by
  intro target
  have htarget : (s.cpu.pc + sext16 off).toNat = target := toNat_add_sext16 _ off
  cases taken with
  | true =>
    refine ⟨hop, _, hx.trans (branchIf_true off s), rfl, fun _ => ⟨htarget, ?_⟩, fun hnot => absurd (hcond.2 rfl) hnot⟩
    rw [← htarget]
    exact takenCycles_eq _ _
  | false =>
    exact ⟨hop, _, hx.trans (branchIf_false off s), rfl, fun hc => absurd (hcond.1 hc) Bool.false_ne_true,
      fun _ => ⟨rfl, rfl⟩⟩

/-! ## The obligation -/

/-- Settles O33: every form is `branchIf` on its flag or on the flag's negation. -/
theorem branches : Obligations.Branches := by
  unfold Obligations.Branches
  intro s off
  simp only [List.forall_mem_cons, List.not_mem_nil, false_implies, implies_true, and_true]
  have hclear (b : Bool) : b = false ↔ (!b) = true := by rw [Bool.not_eq_true']
  exact ⟨branches_of_exec rfl rfl (hclear _), branches_of_exec rfl rfl Iff.rfl, branches_of_exec rfl rfl Iff.rfl,
    branches_of_exec rfl rfl (hclear _), branches_of_exec rfl rfl Iff.rfl, branches_of_exec rfl rfl (hclear _),
    branches_of_exec rfl rfl (hclear _), branches_of_exec rfl rfl Iff.rfl⟩

end Sys2Proof.Machine
end

section
/-! SUPPORT. The stack instructions (R225 to R229): the cell of the stack page that a push writes and a pull reads, and
what each of the four leaves. -/

namespace Sys2Proof.Machine

/-! ## The stack as memory cells (R24) -/

theorem storedCell_stackAddr (sp : Byte) (s : State) : storedCell (stackAddr sp) s = some (stackCell sp) := by
  rw [storedCell_ram s (stackAddr_lt sp), ← ramIndex_eq, ramIndex_stackAddr]
  rfl

/-- A push changes the cell at SP and no other. -/
theorem storedAt_push (v : Byte) (s : State) : StoredAt (some (stackCell s.cpu.sp)) v s (push v s) := by
  rw [← storedCell_stackAddr s.cpu.sp s]
  exact fun c => (cell_withCpu _ _ c).trans (storedAt_busWrite s v _ c)

/-- A pull reads the cell above SP. -/
theorem pull_eq_cell (s : State) : pull s = (s.cell (stackCell (s.cpu.sp + 1)), s.setSP (s.cpu.sp + 1)) := pull_eq s

/-! ## The instructions (R226 to R229) -/

/-- An instruction that pushes `v` and does nothing else moves SP down and changes the cell at SP. -/
theorem stored_of_exec_push {i : Instr} {s : State} {v : Byte} {n : Nat} (hx : exec i s = finish n (push v s)) :
    ∃ t, exec i s = .next t ∧
      t = { s with ram := t.ram, cpu := { s.cpu with sp := s.cpu.sp - 1, cycles := n } } ∧
      StoredAt (some (stackCell s.cpu.sp)) v s t := by
  refine ⟨_, hx, ?_, fun c => (cell_withCpu _ _ c).trans (storedAt_push v s c)⟩
  rw [push_eq]
  rfl

/-- A pull into A, in full (R228). -/
theorem exec_pla (s : State) : exec .pla s =
    let v := s.cell (stackCell (s.cpu.sp + 1))
    .next { s with cpu := { s.cpu with a := v, sp := s.cpu.sp + 1, p := setNZ v s.cpu.p, cycles := 4 } } := by
  change finish 4 (loadA (pull s).1 (pull s).2) = _
  rw [pull_eq_cell]
  rfl

theorem plp_eq (v : Byte) (s : State) : plp v s = { s with
    cpu := { s.cpu with
      p := pulledP v
      iWindow := if s.cfg.plpILatency then some (flagI s.cpu.p) else s.cpu.iWindow } } := by
  unfold plp
  dsimp only
  split <;> rfl

/-- A pull into P, in full (R229, R296). -/
theorem exec_plp (s : State) : exec .plp s = .next { s with
    cpu := { s.cpu with
      sp := s.cpu.sp + 1, p := pulledP (s.cell (stackCell (s.cpu.sp + 1))), cycles := 4
      iWindow := if s.cfg.plpILatency then some (flagI s.cpu.p) else s.cpu.iWindow } } := by
  change finish 4 (plp (pull s).1 (pull s).2) = _
  rw [pull_eq_cell, plp_eq]
  rfl

/-! ## The obligation -/

/-- Settles O34: PHA and PHP are one push, of A and of `pushedP`; PLA and PLP put the byte of the cell above SP into A
and into P. -/
theorem stackPushesAndPulls : Obligations.StackPushesAndPulls := by
  unfold Obligations.StackPushesAndPulls
  refine ⟨fun s => ⟨⟨rfl, stored_of_exec_push (n := 3) rfl⟩, rfl, ?php⟩, fun s => ⟨⟨rfl, ?pla⟩, rfl, ?plp⟩⟩
  case php =>
    obtain ⟨t, hx, ht, hstored⟩ := stored_of_exec_push (i := .php) (s := s) (n := 3) rfl
    exact ⟨t, pushedP true s.cpu.p, hx, ht, hstored, bit_pushedP _ _ 4 (by decide), bit_pushedP _ _ 5 (by decide),
      sameFlagsBut_pushedP _ _⟩
  case pla => exact ⟨_, exec_pla s, rfl, flagsNZ_setNZ _ _, sameFlagsBut_setNZ _ _⟩
  case plp =>
    exact ⟨_, exec_plp s, rfl, sameFlagsBut_pulledP _, bit_pulledP _ 4 (by decide), bit_pulledP _ 5 (by decide)⟩

end Sys2Proof.Machine
end

section
/-! SUPPORT. The flag instructions (R235 to R241): the one bit of P that each writes, and what every one of them leaves. -/

namespace Sys2Proof.Machine

/-- `set` writes bit `n` of P and keeps every other bit. -/
def WritesBit (n : Nat) (set : Bool → Byte → Byte) : Prop :=
  ∀ b p i, bit (set b p) i = if i = n then b else bit p i

theorem writesBit_setC : WritesBit 0 setC := bit_setC
theorem writesBit_setI : WritesBit 2 setI := bit_setI
theorem writesBit_setD : WritesBit 3 setD := bit_setD
theorem writesBit_setV : WritesBit 6 setV := bit_setV

/-- Every flag instruction: one bit of P takes `b` and the latency window becomes `window`, which for an instruction that
opens none is the window of before. -/
theorem WritesBit.flagInstruction {n : Nat} {set : Bool → Byte → Byte} (hset : WritesBit n set) {i : Instr} {op : Byte}
    {b : Bool} {window : Option Bool} {s : State} (hop : i.opcode = op)
    (hx : exec i s = finish 2 ((s.setIWindow window).setP (set b s.cpu.p))) :
    i.opcode = op ∧ ∃ t, exec i s = .next t ∧
      t = { s with cpu := { s.cpu with p := t.cpu.p, iWindow := window, cycles := 2 } } ∧
      ∀ j, j < 8 → bit t.cpu.p j = if j = n then b else bit s.cpu.p j :=
  ⟨hop, _, hx, rfl, fun j _ => hset b s.cpu.p j⟩

/-- Settles O36: each form sets its own bit of P, CLI and SEI after opening a window with the old I; NOP sets its cycles
alone. -/
theorem flagInstructionsAndNop : Obligations.FlagInstructionsAndNop := by
  unfold Obligations.FlagInstructionsAndNop
  intro s
  refine ⟨⟨rfl, rfl⟩, ?_⟩
  simp only [List.forall_mem_cons, List.not_mem_nil, false_implies, implies_true, and_true]
  exact ⟨writesBit_setC.flagInstruction rfl rfl, writesBit_setC.flagInstruction rfl rfl,
    writesBit_setI.flagInstruction rfl rfl, writesBit_setI.flagInstruction rfl rfl,
    writesBit_setD.flagInstruction rfl rfl, writesBit_setD.flagInstruction rfl rfl,
    writesBit_setV.flagInstruction rfl rfl⟩

end Sys2Proof.Machine
end

section
/-! SUPPORT. Jumps, subroutines, RTI and BRK (R250 to R254): a word on the stack as two cells of its page, and RTI as the
inverse of every exception's entry (R304). -/

namespace Sys2Proof.Machine

/-! ## A word on the stack (R24, R251, R252) -/

theorem sub_one_sub_one (sp : Byte) : sp - 1 - 1 = sp - 2 := BitVec.sub_sub sp 1 1
theorem add_one_add_one (sp : Byte) : sp + 1 + 1 = sp + 2 := BitVec.add_assoc sp 1 1
theorem add_two_add_one (sp : Byte) : sp + 2 + 1 = sp + 3 := BitVec.add_assoc sp 2 1

theorem stackCell_sub_one_ne (sp : Byte) : stackCell (sp - 1) ≠ stackCell sp := by
  rw [ne_eq, stackCell_inj]
  bv_omega

/-- Pushing a word changes the cell at SP, to its high byte, and the cell below, to its low byte. -/
theorem pushWord_cell (w : Word) (s : State) (c : MemCell) : (pushWord w s).cell c =
    if stackCell (s.cpu.sp - 1) = c then lo8 w else if stackCell s.cpu.sp = c then hi8 w else s.cell c := by
  have hsp : (push (hi8 w) s).cpu.sp = s.cpu.sp - 1 := rfl
  rw [pushWord, storedAt_push, storedAt_push, hsp]
  simp only [Option.some.injEq]

theorem pushWord_cell_hi (w : Word) (s : State) : (pushWord w s).cell (stackCell s.cpu.sp) = hi8 w := by
  rw [pushWord_cell, if_neg (stackCell_sub_one_ne _), if_pos rfl]

theorem pushWord_cell_lo (w : Word) (s : State) : (pushWord w s).cell (stackCell (s.cpu.sp - 1)) = lo8 w := by
  rw [pushWord_cell, if_pos rfl]

theorem pushWord_cell_other (w : Word) {s : State} {c : MemCell} (hhi : c ≠ stackCell s.cpu.sp)
    (hlo : c ≠ stackCell (s.cpu.sp - 1)) : (pushWord w s).cell c = s.cell c := by
  rw [pushWord_cell, if_neg hlo.symm, if_neg hhi.symm]

/-- Pulling a word reads the two cells above SP, the low byte first. -/
theorem pullWord_eq_cell (s : State) : pullWord s =
    (mkWord (s.cell (stackCell (s.cpu.sp + 2))) (s.cell (stackCell (s.cpu.sp + 1))), s.setSP (s.cpu.sp + 2)) := by
  rw [← add_one_add_one]
  exact pullWord_eq s

/-! ## The instructions (R250 to R253) -/

theorem atInd_ea_toNat (w : Word) (s : State) : (atInd w s).ea.toNat =
    256 * (busRead (mkWord (hi8 w) (lo8 w + 1)) (busRead w s).2).1.toNat + (busRead w s).1.toNat := by
  rw [Nat.mul_comm]
  exact toNat_mkWord _ _

/-- JMP through a pointer, in full (R109, R250). -/
theorem exec_jmpInd (w : Word) (s : State) : exec (.jmpInd w) s =
    .next { (atInd w s).st with cpu := { s.cpu with pc := (atInd w s).ea, cycles := 5 } } := by
  rw [← (onlyRead_atInd w s).cpu]
  rfl

/-- JSR, in full (R251). -/
theorem exec_jsr (w : Word) (s : State) : exec (.jsr w) s =
    .next { pushWord (s.cpu.pc - 1) s with cpu := { s.cpu with sp := s.cpu.sp - 2, pc := w, cycles := 6 } } := by
  change finish 6 ((pushWord (s.cpu.pc - 1) s).setPC w) = _
  rw [pushWord_eq, sub_one_sub_one]
  rfl

/-- RTS, in full (R252). -/
theorem exec_rts (s : State) : exec .rts s = .next { s with
    cpu := { s.cpu with
      sp := s.cpu.sp + 2, cycles := 6
      pc := mkWord (s.cell (stackCell (s.cpu.sp + 2))) (s.cell (stackCell (s.cpu.sp + 1))) + 1 } } := by
  change finish 6 ((pullWord s).2.setPC ((pullWord s).1 + 1)) = _
  rw [pullWord_eq_cell]
  rfl

/-- RTI, in full (R253). -/
theorem exec_rti (s : State) : exec .rti s = .next { s with
    cpu := { s.cpu with
      sp := s.cpu.sp + 3, cycles := 6
      p := pulledP (s.cell (stackCell (s.cpu.sp + 1)))
      pc := mkWord (s.cell (stackCell (s.cpu.sp + 3))) (s.cell (stackCell (s.cpu.sp + 2))) } } := by
  change finish 6 (returnFromException s) = _
  rw [returnFromException_eq, add_one_add_one s.cpu.sp, add_two_add_one]
  rfl

/-! ## RTI undoes an entry (R301, R304) -/

/-- P comes back from its pushed copy, whatever bits 4 and 5 of the copy are: in P these two are fixed (R28). -/
theorem pulledP_of_sameFlagsBut {p b : Byte} (hB : flagB p = false) (hU : flagU p = true)
    (h : SameFlagsBut 0x30 p b) : pulledP b = p := by
  have hmask : ∀ i < 8, i ≠ 4 → i ≠ 5 → bit (0x30 : Byte) i = false := by decide
  refine BitVec.eq_of_getLsbD_eq fun i hi => (bit_pulledP b i hi).trans ?_
  split_ifs with h4 h5
  · rw [h4]; exact hB.symm
  · rw [h5]; exact hU.symm
  · exact h i hi (hmask i hi h4 h5)

/-- RTI on the state an entry leaves: SP moves back over the three pushed bytes, which are P and PC. -/
theorem exec_rti_of_entered {vec : Word} {brk : Bool} {s t : State} (hs : s.StatusOk) (h : Entered vec brk s t) :
    exec .rti t = .next { t with cpu := { s.cpu with cycles := 6 } } := by
  obtain ⟨hB, hU⟩ := hs
  obtain ⟨ht, -, -, -, hhi, hlo, ⟨b, hb, -, -, hflags⟩, -⟩ := h
  have hcpu : t.cpu = { s.cpu with sp := s.cpu.sp - 3, p := t.cpu.p, pc := t.cpu.pc, cycles := t.cpu.cycles } :=
    congrArg State.cpu ht
  have hsp : t.cpu.sp = s.cpu.sp - 3 := congrArg Cpu.sp hcpu
  have h1 : t.cpu.sp + 1 = s.cpu.sp - 2 := by bv_omega
  have h2 : t.cpu.sp + 2 = s.cpu.sp - 1 := by bv_omega
  have h3 : t.cpu.sp + 3 = s.cpu.sp := by bv_omega
  rw [exec_rti, h1, h2, h3, hhi, hlo, hb, mkWord_hi8_lo8, pulledP_of_sameFlagsBut hB hU hflags, hcpu]

/-! ## The obligations -/

/-- Settles O13: `takeException` is an entry, and RTI undoes every entry. -/
theorem rtiUndoesEntry : Obligations.RtiUndoesEntry := by
  unfold Obligations.RtiUndoesEntry
  intro s vec brk hs hlo hhi
  have hentered : Entered vec brk s (takeException vec brk s) :=
    entered_takeException brk s vec (takeException vec brk s).cpu.cycles hlo (by bv_omega)
  have hrti := exec_rti_of_entered hs hentered
  obtain ⟨-, -, -, -, -, -, -, hother⟩ := hentered
  exact ⟨_, hrti, rfl, fun c h0 h1 h2 => (cell_withCpu _ _ c).trans (hother c h0 h1 h2)⟩

/-- Settles O37: JMP through a pointer is `atInd`, JSR is `pushWord` of its own last byte's address, and RTS is
`pullWord`. -/
theorem jumpsAndSubroutines : Obligations.JumpsAndSubroutines := by
  unfold Obligations.JumpsAndSubroutines
  intro s w
  refine ⟨⟨rfl, rfl⟩, ⟨rfl, ?jmpInd⟩, ⟨rfl, ?jsr⟩, rfl, ?rts⟩
  case jmpInd =>
    rw [← mkWord_hi8_lo8_add_one]
    exact ⟨_, exec_jmpInd w s, rfl, atInd_ea_toNat w s,
      fun c => (cell_withCpu _ _ c).trans ((onlyRead_atInd w s).cell c)⟩
  case jsr =>
    refine ⟨_, exec_jsr w s, by rw [pushWord_eq], ?_,
      fun c hhi hlo => (cell_withCpu _ _ c).trans (pushWord_cell_other _ hhi hlo)⟩
    rw [cell_withCpu, pushWord_cell_hi, cell_withCpu, pushWord_cell_lo, toNat_hi8, toNat_lo8, Nat.div_add_mod]
    bv_omega
  case rts =>
    refine ⟨_, exec_rts s, rfl, ?_⟩
    rw [BitVec.toNat_add, toNat_mkWord, Nat.mul_comm]
    rfl

/-- Settles O39: RTI pulls P through `pulledP`, which fixes bits 4 and 5 alone, and then a word. -/
theorem rtiRestoresStatusAndPc : Obligations.RtiRestoresStatusAndPc := by
  unfold Obligations.RtiRestoresStatusAndPc
  intro s
  refine ⟨rfl, _, exec_rti s, rfl, sameFlagsBut_pulledP _, bit_pulledP _ 4 (by decide), bit_pulledP _ 5 (by decide), ?_⟩
  rw [toNat_mkWord, Nat.mul_comm]

/-- Settles O40: BRK is `takeException` at the vector of IRQ, from the address after the padding byte. -/
theorem brkEntersHandler : Obligations.BrkEntersHandler := by
  unfold Obligations.BrkEntersHandler
  intro s
  exact ⟨rfl, _, rfl, entered_takeException true (s.setPC (s.cpu.pc + 1)) vectorIrq 7 (by decide) (by decide), rfl⟩

end Sys2Proof.Machine
end

section
/-! SUPPORT. The unofficial opcodes under `UNOFFICIAL_POLICY = nop` (R267, R268): the addressing mode, and nothing else. -/

namespace Sys2Proof.Machine

/-- The catch-all under the nop policy: the mode's reads and a cycle count, one tick more only for a Read-class row. -/
theorem unofficial_nop {s : State} (op : Byte) (len : Word) (n : Nat) (cls : AccessClass) (mode : State → Located)
    (h : s.cfg.unofficialPolicy = .nop) :
    unofficial op len n cls mode s = .next ((mode s).st.setCycles (n + ((mode s).crossed && cls == .read).toNat)) := by
  rw [unofficial, h]
  rfl

/-- A form of the catch-all: a row of class `cls` whose addressing mode only reads. -/
structure Form.IsNoOp (cls : AccessClass) (s : State) (f : Form) : Prop where
  opcode : f.i.opcode = f.op
  exec_eq : ∃ len mode, exec f.i s = unofficial f.op len f.n cls mode s ∧ (mode s).st = f.l.st ∧
    (mode s).crossed = f.l.crossed
  onlyRead : OnlyRead s f.l.st

section NoOps

variable {cls : AccessClass} {s : State} {f : Form}

theorem Form.IsNoOp.goesOn (h : f.IsNoOp cls s) (hp : s.cfg.unofficialPolicy = .nop) :
    f.i.opcode = f.op ∧ ∃ t, exec f.i s = .next t ∧ SameMemory s t ∧
      t = { f.l.st with cpu := { s.cpu with cycles := f.n + (f.l.crossed && cls == .read).toNat } } := by
  obtain ⟨hop, ⟨len, mode, hx, hst, hcrossed⟩, hread⟩ := h
  rw [unofficial_nop _ _ _ _ _ hp, hst, hcrossed] at hx
  refine ⟨hop, _, hx, fun c => (cell_withCpu _ _ c).trans (hread.cell c), ?_⟩
  rw [← hread.cpu]
  rfl

/-- A Read-class row takes one more cycle on a page cross. -/
theorem Form.IsNoOp.read (h : f.IsNoOp .read s) (hp : s.cfg.unofficialPolicy = .nop) :
    f.i.opcode = f.op ∧ ∃ t, exec f.i s = .next t ∧ SameMemory s t ∧
      t = { f.l.st with cpu := { s.cpu with cycles := f.n + if f.l.crossed = true then 1 else 0 } } := by
  have hn : (f.l.crossed && AccessClass.read == .read).toNat = if f.l.crossed = true then 1 else 0 := by
    cases f.l.crossed <;> rfl
  rw [← hn]
  exact h.goesOn hp

/-- A row of another class takes its base cycles. -/
theorem Form.IsNoOp.other (h : f.IsNoOp cls s) (hcls : cls ≠ .read) (hp : s.cfg.unofficialPolicy = .nop) :
    f.i.opcode = f.op ∧ ∃ t, exec f.i s = .next t ∧ SameMemory s t ∧
      t = { f.l.st with cpu := { s.cpu with cycles := f.n } } := by
  have hgo := h.goesOn hp
  rwa [beq_eq_false_iff_ne.2 hcls, Bool.and_false] at hgo

end NoOps

/-- Settles O42: each row's meaning is the catch-all, with the row's class and its addressing mode, which only reads. -/
theorem unofficialNoOp : Obligations.UnofficialNoOp := by
  unfold Obligations.UnofficialNoOp
  intro s imm z w hp
  have hread := OnlyRead.refl s
  constructor
  · intro f hf
    refine Form.IsNoOp.read ?_ hp
    revert f
    simp only [List.forall_mem_cons, List.not_mem_nil, false_implies, implies_true, and_true]
    and_intros
    all_goals exact ⟨rfl, ⟨_, _, rfl, rfl, rfl⟩, by
      simp only [atZp0, atZpx, atZpy, atAbs, hread, onlyRead_atAbx, onlyRead_atAby, onlyRead_atIzx, onlyRead_atIzy]⟩
  · intro f hf
    suffices h : ∃ cls, f.IsNoOp cls s ∧ cls ≠ .read from
      h.elim fun _ h => h.1.other h.2 hp
    revert f
    simp only [List.forall_mem_append, List.forall_mem_cons, List.not_mem_nil, false_implies, implies_true, and_true]
    and_intros
    all_goals exact ⟨_, ⟨rfl, ⟨_, _, rfl, rfl, rfl⟩, by
      simp only [atZp0, atZpx, atZpy, atAbs, hread, onlyRead_atAbx, onlyRead_atAby, onlyRead_atIzx, onlyRead_atIzy]⟩,
      nofun⟩

end Sys2Proof.Machine
end

section
/-! SUPPORT. The CPU tick's units: OAM DMA, the DMC's borrowed read, and the boundary's interrupts (R282 to R302). -/

namespace Sys2Proof.Machine

variable {s : State}

/-! ## OAM DMA (R285 to R287) -/

theorem busWrite_oamDma (v : Byte) (s : State) : busWrite 0x4014 v s = s.startOamDma v :=
  busWrite_low v s (a := 0x4014) (by decide)

theorem cpuTick_oamDma (h : s.cpu.dmaActive = true) : cpuTick s = .next (dmaStep s) := if_pos h

/-- The address of the next byte of the transfer. -/
theorem mkWord_eq_ofNat (hi lo : Byte) : mkWord hi lo = BitVec.ofNat 16 (256 * hi.toNat + lo.toNat) := by
  apply BitVec.eq_of_toNat_eq
  rw [toNat_mkWord, BitVec.toNat_ofNat]
  omega

theorem dmaStep_align (h : s.cpu.dmaWait = true) :
    dmaStep s = { s with cpu := { s.cpu with dmaWait := s.sysclk % 6 != 3 } } := by
  rw [dmaStep, if_pos h]
  split
  · next h3 => rw [h3]; rfl
  · next h3 => rw [bne_iff_ne.2 h3, ← h]

theorem dmaStep_read (h : s.cpu.dmaWait = false) (h0 : s.sysclk % 6 = 0) : dmaStep s = dmaRead s := by
  rw [dmaStep, if_neg (by simp [h]), if_pos h0]

theorem dmaStep_write (h : s.cpu.dmaWait = false) (h3 : s.sysclk % 6 = 3) : dmaStep s = dmaWrite s := by
  rw [dmaStep, if_neg (by simp [h]), if_neg (by omega)]

theorem dmaRead_eq (s : State) : dmaRead s =
    { (busRead (mkWord s.cpu.dmaPage s.cpu.dmaIndex) s).2 with
      cpu := { s.cpu with dmaData := (busRead (mkWord s.cpu.dmaPage s.cpu.dmaIndex) s).1 } } := by
  unfold dmaRead
  dsimp only
  rw [busRead_cpu]

/-- The 256th write ends the transfer (R286). -/
theorem dmaAdvance_eq {c : Cpu} (hactive : c.dmaActive = true) (hwait : c.dmaWait = false) : c.dmaAdvance =
    { c with dmaIndex := c.dmaIndex + 1, dmaActive := c.dmaIndex != 255, dmaWait := c.dmaIndex == 255 } := by
  have hlast : c.dmaIndex + 1 = 0 ↔ c.dmaIndex = 255 := by bv_omega
  unfold Cpu.dmaAdvance
  dsimp only
  split
  · next h => rw [hlast.1 h]; rfl
  · next h =>
    have hne : c.dmaIndex ≠ 255 := fun he => h (hlast.2 he)
    rw [bne_iff_ne.2 hne, beq_eq_false_iff_ne.2 hne, ← hactive, ← hwait]

/-- The OAM index that a step of the transfer writes, by `DMA_OAM_TARGET` (R287). -/
def dmaOamIndex (target : DmaOamTarget) (oamaddr index : Byte) : Nat :=
  match target with
  | .viaOamaddr => (oamaddr.toNat + index.toNat) % 256
  | .direct => index.toNat

theorem oamDmaWrite_eq (target : DmaOamTarget) (p : Ppu) (index d : Byte) : p.oamDmaWrite target index d =
    { p with oam := Store.write p.oam (dmaOamIndex target p.oamaddr index) d } := by
  cases target with
  | viaOamaddr => rw [Ppu.oamDmaWrite, BitVec.toNat_add]; rfl
  | direct => rfl

/-- A write of one OAM byte stores it there and nowhere else. -/
theorem storedAt_oam {s t : State} {i : Nat} {d : Byte}
    (h : t = { s with ppu := { s.ppu with oam := Store.write s.ppu.oam i d, oamaddr := t.ppu.oamaddr }, cpu := t.cpu }) :
    StoredAt (some (.oam i)) d s t := by
  intro c
  rw [h]
  cases c with
  | oam j =>
    show Store.read (Store.write s.ppu.oam i d) j = _
    rw [Store.read_write]
    simp only [Option.some.injEq, MemCell.oam.injEq, eq_comm]
    rfl
  | _ => rfl

/-- Settles O9: the trigger is `startOamDma`, and a tick of an active transfer is `dmaStep`, case by case. -/
theorem oamDma : Obligations.OamDma := by
  unfold Obligations.OamDma
  refine ⟨busWrite_oamDma, fun s hclk hactive => ?_⟩
  rw [cpuClock_on_tick hclk, cpuTick_oamDma hactive]
  refine ⟨?align, ?read, ?write⟩
  case align => exact fun hwait => by rw [dmaStep_align hwait]
  case read =>
    intro hwait h0
    rw [dmaStep_read hwait h0, dmaRead_eq, mkWord_eq_ofNat]
    exact ⟨_, rfl, fun c => (cell_withCpu _ _ c).trans (busRead_cell _ s c), rfl⟩
  case write =>
    intro hwait h3
    rw [dmaStep_write hwait h3, dmaWrite, oamDmaWrite_eq, dmaAdvance_eq hactive hwait]
    exact ⟨_, rfl, rfl, storedAt_oam rfl, rfl⟩

/-! ## The DMC's borrowed read (R289) -/

theorem cpuTick_dmcFetch (hdma : s.cpu.dmaActive = false) (h : s.cpu.dmcFetchPending = true) :
    cpuTick s = .next (dmcFetchStep s) := by
  rw [cpuTick, if_neg (by simp [hdma]), if_pos h]

theorem nextStall_eq (c : Cpu) : c.nextStall = if c.dmcStall = 0 then 3 else c.dmcStall - 1 := by
  unfold Cpu.nextStall
  split <;> rfl

theorem dmcFetchStep_stall (h : s.cpu.dmcStall ≠ 1) :
    dmcFetchStep s = { s with cpu := { s.cpu with dmcStall := s.cpu.nextStall } } := by
  have hne : s.cpu.nextStall ≠ 0 := by
    rw [nextStall_eq]
    split <;> omega
  exact if_neg hne

theorem dmcFetchStep_deliver (h : s.cpu.dmcStall = 1) : dmcFetchStep s =
    { (busRead s.cpu.dmcFetchAddr s).2 with
      cpu := { s.cpu with dmcStall := 0, dmcFetchPending := false }
      apu := { (busRead s.cpu.dmcFetchAddr s).2.apu with
        dmc := (busRead s.cpu.dmcFetchAddr s).2.apu.dmc.fill (busRead s.cpu.dmcFetchAddr s).1 } } := by
  have h0 : s.cpu.nextStall = 0 := by rw [nextStall_eq, h]; rfl
  unfold dmcFetchStep
  dsimp only
  rw [if_pos h0, h0]
  unfold dmcDeliver
  dsimp only
  rw [busRead_withCpu]

/-- The APU holds no memory cell. -/
theorem cell_withCpuApu (c : Cpu) (u : Apu) (k : MemCell) : ({ s with cpu := c, apu := u } : State).cell k = s.cell k := by
  cases k <;> rfl

/-- Settles O10: a tick of a pending fetch is `dmcFetchStep`, which reads when the stall's last tick is reached. -/
theorem dmcFetchStallsFourTicks : Obligations.DmcFetchStallsFourTicks := by
  unfold Obligations.DmcFetchStallsFourTicks
  intro s hclk hdma hpending
  rw [cpuClock_on_tick hclk, cpuTick_dmcFetch hdma hpending]
  constructor
  · intro h
    rw [dmcFetchStep_stall h, nextStall_eq]
  · intro h
    rw [dmcFetchStep_deliver h]
    exact ⟨_, rfl, fun c => (cell_withCpuApu _ _ c).trans (busRead_cell _ s c), rfl⟩

/-! ## The boundary's interrupts (R290 to R302) -/

theorem cpuClock_boundary (h : s.AtBoundary) : cpuClock s = mapNext countDown (boundary s) := by
  obtain ⟨hclk, hdma, hdmc, hcycles⟩ := h
  rw [cpuClock_on_tick hclk, cpuTick, if_neg (by simp [hdma]), if_neg (by simp [hdmc]), if_pos hcycles]

theorem setU_of_flagU {p : Byte} (h : flagU p = true) : setU true p = p := by
  apply BitVec.eq_of_getLsbD_eq
  intro i _
  show bit (setU true p) i = bit p i
  rw [bit_setU]
  split
  · next hi => rw [hi]; exact h.symm
  · rfl

/-- After an entry P.U is already 1: what ends the boundary's tick only counts down (R27, R282). -/
theorem countDown_forceU_takeException (vec : Word) (n : Nat) (hs : s.StatusOk) (h1 : 0x6000 ≤ vec)
    (h2 : 0x6000 ≤ vec + 1) :
    countDown ((takeException vec false s).setCycles n).forceU = (takeException vec false s).setCycles (n - 1) := by
  obtain ⟨-, -, hflags, -⟩ := entered_takeException false s vec n h1 h2
  have hU : flagU ((takeException vec false s).setCycles n).cpu.p = true :=
    (hflags 5 (by decide) (by decide)).trans hs.2
  unfold countDown State.forceU
  rw [setU_of_flagU hU]
  rfl

/-- Settles O11: at the boundary a pending NMI is looked at first. -/
theorem nmiTakenFirst : Obligations.NmiTakenFirst := by
  unfold Obligations.NmiTakenFirst
  intro s hs hb hnmi
  have htaken : boundary s = .next (enterNmi (s.setIWindow none)).forceU := by
    unfold boundary
    dsimp only
    rw [if_pos (by simpa using hnmi), mapNext_next]
  rw [cpuClock_boundary hb, htaken, mapNext_next, enterNmi, countDown_forceU_takeException _ _ ?_ (by decide) (by decide)]
  · exact ⟨_, rfl, entered_takeException _ _ _ _ (by decide) (by decide), rfl⟩
  · exact hs

/-- Settles O12: with no NMI the boundary looks at the IRQ line and the mask of before the window was closed. -/
theorem irqTakenUnlessMasked : Obligations.IrqTakenUnlessMasked := by
  unfold Obligations.IrqTakenUnlessMasked
  intro s hs hb hnmi mask
  have hmask : mask = s.irqMask := by
    unfold mask State.irqMask
    cases s.cpu.iWindow <;> rfl
  rw [hmask, cpuClock_boundary hb]
  have hnotNmi : ¬ (s.setIWindow none).cpu.nmiPending = true := by simp [hnmi]
  constructor
  · rintro ⟨hline, hmask⟩
    have htaken : boundary s = .next (enterIrq (s.setIWindow none)).forceU := by
      unfold boundary
      dsimp only
      rw [if_neg hnotNmi, if_pos (by rw [irqLine_setIWindow, hline, hmask]; rfl), mapNext_next]
    rw [htaken, mapNext_next, enterIrq, countDown_forceU_takeException _ _ (by exact hs) (by decide) (by decide)]
    exact ⟨_, rfl, entered_takeException _ _ _ _ (by decide) (by decide), rfl⟩
  · intro h
    have hno : (s.irqLine && !s.irqMask) = false := by
      rcases h with h | h <;> rw [h] <;> simp
    unfold boundary
    dsimp only
    rw [if_neg hnotNmi, if_neg (by rw [irqLine_setIWindow, hno]; decide), mapNext_mapNext]

end Sys2Proof.Machine
end

section
/-! SUPPORT. The controller ports (R326, R327): a pad's shift register, moved on by each read. -/

namespace Sys2Proof.Machine

/-! ## One access -/

theorem busWrite_pad (v : Byte) (s : State) : busWrite 0x4016 v s = { s with ctrl := s.ctrl.write v } :=
  busWrite_low v s (a := 0x4016) (by decide)

/-- The port of a pad. -/
def padAddr (pad : Bool) : Word := if pad then 0x4017 else 0x4016

theorem busRead_pad (pad : Bool) (s : State) :
    busRead (padAddr pad) s = ((s.ctrl.read pad).1, { s with ctrl := (s.ctrl.read pad).2 }) := by
  cases pad
  · exact busRead_low s (a := 0x4016) (by decide)
  · exact busRead_low s (a := 0x4017) (by decide)

/-- The shift register of a pad. -/
def Controller.shift (k : Controller) (pad : Bool) : Byte := if pad then k.shift1 else k.shift0

/-- The host's buttons of a pad. -/
def Controller.buttons (k : Controller) (pad : Bool) : Byte := if pad then k.buttons1 else k.buttons0

/-- A read's value: the most significant bit of the register, or of the buttons under strobe. -/
theorem Controller.read_toNat (k : Controller) (pad : Bool) :
    (k.read pad).1.toNat = (bit (if k.strobe then k.buttons pad else k.shift pad) 7).toNat := by
  cases pad <;> exact toNat_ofBit _ 8 (by decide)

theorem Controller.read_strobe (k : Controller) (pad : Bool) : (k.read pad).2.strobe = k.strobe := by
  cases pad <;> rfl

theorem Controller.read_buttons (k : Controller) (pad other : Bool) :
    (k.read pad).2.buttons other = k.buttons other := by
  cases pad <;> cases other <;> rfl

/-- Without strobe a read moves its own pad's register on, and leaves the other's. -/
theorem Controller.read_shift {k : Controller} (h : k.strobe = false) (pad other : Bool) :
    (k.read pad).2.shift other = if other = pad then k.shift pad <<< 1 else k.shift other := by
  cases pad <;> cases other <;> simp [Controller.read, Controller.shift, h]

/-! ## Many reads -/

/-- The state after `n` reads of an address. -/
def readsOf (a : Word) (n : Nat) (s : State) : State := (fun u => (busRead a u).2)^[n] s

theorem readsOf_succ (a : Word) (n : Nat) (s : State) : readsOf a (n + 1) s = (busRead a (readsOf a n s)).2 :=
  Function.iterate_succ_apply' _ n s

section Reads

variable (pad other : Bool) (n : Nat) (s : State)

theorem readsOf_strobe : (readsOf (padAddr pad) n s).ctrl.strobe = s.ctrl.strobe := by
  induction n with
  | zero => rfl
  | succ n ih => rw [readsOf_succ, busRead_pad, ← ih]; exact Controller.read_strobe _ _

theorem readsOf_buttons : (readsOf (padAddr pad) n s).ctrl.buttons other = s.ctrl.buttons other := by
  induction n with
  | zero => rfl
  | succ n ih => rw [readsOf_succ, busRead_pad, ← ih]; exact Controller.read_buttons _ _ _

variable {s}

theorem readsOf_shift_same (h : s.ctrl.strobe = false) :
    (readsOf (padAddr pad) n s).ctrl.shift pad = s.ctrl.shift pad <<< n := by
  induction n with
  | zero => exact (BitVec.shiftLeft_zero _).symm
  | succ n ih =>
    rw [readsOf_succ, busRead_pad, BitVec.shiftLeft_add, ← ih]
    exact (Controller.read_shift ((readsOf_strobe pad n s).trans h) pad pad).trans (if_pos rfl)

theorem readsOf_shift_other (h : s.ctrl.strobe = false) (hne : other ≠ pad) :
    (readsOf (padAddr pad) n s).ctrl.shift other = s.ctrl.shift other := by
  induction n with
  | zero => rfl
  | succ n ih =>
    rw [readsOf_succ, busRead_pad, ← ih]
    exact (Controller.read_shift ((readsOf_strobe pad n s).trans h) pad other).trans (if_neg hne)

/-- Under strobe every read gives the first button. -/
theorem busRead_pad_of_strobe (h : s.ctrl.strobe = true) :
    (busRead (padAddr pad) (readsOf (padAddr pad) n s)).1.toNat = (bit (s.ctrl.buttons pad) 7).toNat := by
  rw [busRead_pad, Controller.read_toNat, readsOf_strobe, h, if_pos rfl, readsOf_buttons]

/-- Without strobe the `n`-th read gives the `n`-th bit of the register from the top, then 0. -/
theorem busRead_pad_of_latched (h : s.ctrl.strobe = false) :
    (busRead (padAddr pad) (readsOf (padAddr pad) n s)).1.toNat =
      if n < 8 then (bit (s.ctrl.shift pad) (7 - n)).toNat else 0 := by
  rw [busRead_pad, Controller.read_toNat, readsOf_strobe, h, if_neg nofun, readsOf_shift_same pad n h]
  unfold bit
  rw [BitVec.getLsbD_shiftLeft]
  split
  · next hn => simp [show ¬ 7 < n by omega]
  · next hn => simp [show 7 < n by omega]

/-- Without strobe the reads of one pad leave the other's first bit to be read. -/
theorem busRead_other_pad_of_latched (h : s.ctrl.strobe = false) (hne : other ≠ pad) :
    (busRead (padAddr other) (readsOf (padAddr pad) n s)).1.toNat = (bit (s.ctrl.shift other) 7).toNat := by
  rw [busRead_pad, Controller.read_toNat, readsOf_strobe, h, if_neg nofun, readsOf_shift_other pad other n h hne]

end Reads

/-- Settles O55: the two writes latch both pads and end the strobe, and then the reads of each go by its register. -/
theorem controllerSerial : Obligations.ControllerSerial := by
  unfold Obligations.ControllerSerial
  intro s k v₁ v₀ h₁ h₀ on off reads
  have hon : on.ctrl = { s.ctrl with strobe := true, shift0 := s.ctrl.buttons0, shift1 := s.ctrl.buttons1 } := by
    unfold on
    rw [busWrite_pad]
    exact if_pos h₁
  have hoff : off.ctrl = { on.ctrl with strobe := false } := by
    unfold off
    rw [busWrite_pad]
    exact if_neg (by rw [h₀]; decide)
  rw [hon] at hoff
  have hstrobe : off.ctrl.strobe = false := by rw [hoff]
  have honStrobe : on.ctrl.strobe = true := by rw [hon]
  have h0 : off.ctrl.shift false = s.ctrl.buttons0 := by rw [hoff]; rfl
  have h1 : off.ctrl.shift true = s.ctrl.buttons1 := by rw [hoff]; rfl
  have hb0 : on.ctrl.buttons false = s.ctrl.buttons0 := by rw [hon]; rfl
  have hb1 : on.ctrl.buttons true = s.ctrl.buttons1 := by rw [hon]; rfl
  rw [← h0, ← h1]
  refine ⟨busRead_pad_of_latched false k hstrobe, busRead_pad_of_latched true k hstrobe,
    busRead_other_pad_of_latched false true k hstrobe nofun, busRead_other_pad_of_latched true false k hstrobe nofun, ?_, ?_⟩
  · rw [h0, ← hb0]
    exact busRead_pad_of_strobe false k honStrobe
  · rw [h1, ← hb1]
    exact busRead_pad_of_strobe true k honStrobe

end Sys2Proof.Machine
end

section
/-! SUPPORT. The APU's units as numbers: the envelope, the sweep and the DMC (R443, R446 to R448, R462, R465, R466). -/

namespace Sys2Proof.Machine

/-! ## The envelope (R443) -/

section Envelopes

variable (e : Envelope) (halt : Bool) (vol : BitVec 4)

theorem Envelope.clock_start : (e.clock halt vol).start = false := by
  unfold Envelope.clock
  split
  · rfl
  · next h => split <;> exact eq_false_of_ne_true h

theorem Envelope.clock_div : (e.clock halt vol).div.toNat =
    if e.start = true ∨ e.div = 0 then vol.toNat else e.div.toNat - 1 := by
  unfold Envelope.clock
  by_cases hs : e.start = true
  · rw [if_pos hs, if_pos (.inl hs)]
  · by_cases hd : e.div = 0
    · rw [if_neg hs, if_pos hd, if_pos (Or.inr hd : e.start = true ∨ e.div = 0)]
    · rw [if_neg hs, if_neg hd, if_neg (not_or.2 ⟨hs, hd⟩)]
      dsimp only
      bv_omega

theorem Envelope.clock_decay : (e.clock halt vol).decay.toNat =
    if e.start = true then 15
    else if e.div ≠ 0 then e.decay.toNat
    else if e.decay.toNat = 0 ∧ halt = true then 15
    else e.decay.toNat - 1 := by
  unfold Envelope.clock
  by_cases hs : e.start = true
  · rw [if_pos hs, if_pos hs]
    rfl
  · by_cases hd : e.div = 0
    · rw [if_neg hs, if_pos hd, if_neg hs, if_neg (not_not.2 hd)]
      dsimp only
      by_cases h0 : e.decay = 0
      · cases halt <;> simp [h0]
      · rw [if_pos (by bv_omega), if_neg (by bv_omega)]
        bv_omega
    · rw [if_neg hs, if_neg hd, if_neg hs, if_pos hd]

end Envelopes

/-! ## The sweep (R446 to R448) -/

section Sweep

variable (cfg : Config) (one : Bool) (p : Pulse)

theorem Pulse.target_eq : (p.target one : Int) =
    if p.swNeg = false then (p.timer.toNat : Int) + p.timer.toNat / 2 ^ p.swShift.toNat
    else max 0 ((p.timer.toNat : Int) - p.timer.toNat / 2 ^ p.swShift.toNat - if one = true then 1 else 0) := by
  have hc : ((p.timer.toNat / 2 ^ p.swShift.toNat : Nat) : Int) = p.timer.toNat / 2 ^ p.swShift.toNat := by push_cast; rfl
  unfold Pulse.target
  dsimp only
  rw [BitVec.toNat_ushiftRight, Nat.shiftRight_eq_div_pow, ← hc]
  generalize p.timer.toNat / 2 ^ p.swShift.toNat = c
  cases p.swNeg <;> cases one <;> simp <;> omega

/-- A target that is not muted fits the timer: a negated one is at most the timer itself. -/
theorem Pulse.target_lt (h : p.sweepMute cfg one = false) : p.target one < 2048 := by
  have ht := p.timer.isLt
  cases hneg : p.swNeg with
  | false =>
    simp only [Pulse.sweepMute, hneg, Bool.not_false, Bool.true_and, Bool.or_eq_false_iff, decide_eq_false_iff_not] at h
    omega
  | true =>
    simp only [Pulse.target, hneg, Bool.not_true, Bool.false_eq_true, if_false]
    split <;> omega

/-- The operand of the low mute test, by `SWEEP_LOW_MUTE_OPERAND` (R448). -/
def Pulse.lowOperand : Nat :=
  match cfg.sweepLowMuteOperand with
  | .target => p.target one
  | .period => p.timer.toNat

theorem Pulse.sweepMute_iff : p.sweepMute cfg one = true ↔
    (p.swNeg = false ∧ 0x7FF < p.target one) ∨ p.lowOperand cfg one < 8 := by
  unfold Pulse.sweepMute Pulse.lowOperand
  cases cfg.sweepLowMuteOperand <;> simp

theorem Pulse.half_timer : (p.half cfg one).timer =
    if p.swDiv = 0 ∧ p.swEn = true ∧ p.swShift ≠ 0 ∧ p.sweepMute cfg one = false then BitVec.ofNat 11 (p.target one)
    else p.timer := by
  have hmute : ∀ n, { p with length := n }.sweepMute cfg one = p.sweepMute cfg one := fun _ => rfl
  have htarget : ∀ n, { p with length := n }.target one = p.target one := fun _ => rfl
  unfold Pulse.half Pulse.sweepClock
  simp only [hmute, htarget, Bool.not_eq_true']
  split <;> rfl

theorem Pulse.half_timer_of_sweep
    (h : p.swDiv = 0 ∧ p.swEn = true ∧ p.swShift ≠ 0 ∧ p.sweepMute cfg one = false) :
    (p.half cfg one).timer.toNat = p.target one := by
  rw [Pulse.half_timer, if_pos h, BitVec.toNat_ofNat]
  exact Nat.mod_eq_of_lt (p.target_lt cfg one h.2.2.2)

theorem Pulse.half_swReload : (p.half cfg one).swReload = false := by
  unfold Pulse.half Pulse.sweepClock
  dsimp only
  split
  · rfl
  · next h => exact eq_false_of_ne_true fun hr => h (.inr hr)

theorem Pulse.half_swDiv : (p.half cfg one).swDiv.toNat =
    if p.swDiv = 0 ∨ p.swReload = true then p.swPeriod.toNat else p.swDiv.toNat - 1 := by
  unfold Pulse.half Pulse.sweepClock
  dsimp only
  split
  · rfl
  · next h =>
    have hne : p.swDiv ≠ 0 := fun h0 => h (.inl h0)
    dsimp only
    bv_omega

end Sweep

/-- Settles O53: the envelope's and the sweep's laws above, the sweep's operands written as integers. -/
theorem sweepAndEnvelope : Obligations.SweepAndEnvelope := by
  unfold Obligations.SweepAndEnvelope
  constructor
  · intro e halt vol f
    exact ⟨fun _ => rfl, e.clock_start halt vol, e.clock_div halt vol, e.clock_decay halt vol⟩
  · intro cfg one p t c target low
    have htarget : (p.target one : Int) = target := p.target_eq one
    have hlow : (p.lowOperand cfg one : Int) = low := by
      unfold low Pulse.lowOperand
      cases cfg.sweepLowMuteOperand
      · exact htarget
      · rfl
    refine ⟨htarget, ?_, ?_, p.half_swReload cfg one, p.half_swDiv cfg one⟩
    · rw [p.sweepMute_iff, ← htarget, ← hlow]
      norm_cast
    · split
      · next h => rw [p.half_timer_of_sweep cfg one h, htarget]
      · next h => rw [p.half_timer, if_neg h]

/-! ## The DMC (R462, R465, R466) -/

section DmcUnit

variable (d : Dmc)

theorem dmcAddr_next (a : Word) : (if a = 0xFFFF then 0x8000 else a + 1) =
    BitVec.ofNat 16 (if a.toNat = 65535 then 32768 else a.toNat + 1) := by
  have hlast : a = 0xFFFF ↔ a.toNat = 65535 := by bv_omega
  by_cases h : a = 0xFFFF
  · rw [if_pos h, if_pos (hlast.1 h)]
    rfl
  · rw [if_neg h, if_neg fun hn => h (hlast.2 hn)]
    bv_omega

/-- A delivered byte: `DmcFill` (R465), the last one told by the count of bytes before it. -/
theorem Dmc.fill_eq (v : Byte) : d.fill v = { d with
    buffer := v, bufferEmpty := false
    curAddr :=
      if (d.bytesRemaining == 1) && d.loop then d.sampleAddr
      else BitVec.ofNat 16 (if d.curAddr.toNat = 65535 then 32768 else d.curAddr.toNat + 1)
    bytesRemaining := if (d.bytesRemaining == 1) && d.loop then d.sampleLen else d.bytesRemaining - 1
    irq := d.irq || ((d.bytesRemaining == 1) && !d.loop && d.irqEn) } := by
  have hlast : d.bytesRemaining - 1 = 0 ↔ d.bytesRemaining = 1 := by bv_omega
  rw [← dmcAddr_next]
  unfold Dmc.fill
  dsimp only
  by_cases h : d.bytesRemaining = 1
  · rw [if_pos (hlast.2 h)]
    cases hl : d.loop <;> cases hi : d.irqEn <;> simp [Dmc.restart, h]
  · rw [if_neg fun h0 => h (hlast.1 h0), beq_eq_false_iff_ne.2 h]
    simp

theorem Dmc.stepLevel_toNat : d.stepLevel.toNat =
    if d.silence = true then d.level.toNat
    else if bit d.shift 0 = true then (if d.level.toNat + 2 ≤ 127 then d.level.toNat + 2 else d.level.toNat)
    else if 2 ≤ d.level.toNat then d.level.toNat - 2 else d.level.toNat := by
  have hup : d.level ≤ 125 ↔ d.level.toNat + 2 ≤ 127 := by bv_omega
  have hdown : d.level ≥ 2 ↔ 2 ≤ d.level.toNat := by bv_omega
  unfold Dmc.stepLevel
  simp only [hup, hdown]
  split
  · rfl
  · split
    · split
      · bv_omega
      · rfl
    · split
      · bv_omega
      · rfl

theorem Dmc.clockOutput_level : d.clockOutput.level = d.stepLevel := by
  unfold Dmc.clockOutput
  dsimp only
  split
  · split <;> rfl
  · rfl

theorem byte_shr_one (b : Byte) : b >>> 1 = BitVec.ofNat 8 (b.toNat / 2) := by
  apply BitVec.eq_of_toNat_eq
  rw [toNat_lsr, BitVec.toNat_ofNat]
  omega

/-- An output clock that leaves bits to shift out (R462). -/
theorem Dmc.clockOutput_shift (h : 1 < d.bitsLeft) :
    d.clockOutput = { d with level := d.stepLevel, shift := d.shift >>> 1, bitsLeft := d.bitsLeft - 1 } := by
  unfold Dmc.clockOutput
  dsimp only
  rw [if_neg (by omega)]

/-- The output clock of the eighth bit: silence, or the buffer taken (R462). -/
theorem Dmc.clockOutput_reload (h : d.bitsLeft = 1) : d.clockOutput =
    if d.bufferEmpty = true then { d with level := d.stepLevel, shift := d.shift >>> 1, bitsLeft := 8, silence := true }
    else { d with level := d.stepLevel, shift := d.buffer, bitsLeft := 8, silence := false, bufferEmpty := true } := by
  unfold Dmc.clockOutput
  dsimp only
  rw [if_pos (by omega)]

end DmcUnit

/-- Settles O54: `Dmc.fill_eq`, and the output unit's cases by its count of bits. -/
theorem dmcFillAndOutput : Obligations.DmcFillAndOutput := by
  unfold Obligations.DmcFillAndOutput
  intro d v f o last
  have hlevel : o.level = d.stepLevel := d.clockOutput_level
  refine ⟨d.fill_eq v, ?_, ?_, ?_, ?_⟩
  · rw [hlevel, d.stepLevel_toNat]
  · intro h
    rw [hlevel, ← byte_shr_one]
    exact d.clockOutput_shift h
  · intro h hempty
    rw [hlevel, ← byte_shr_one]
    exact (d.clockOutput_reload h).trans (if_pos hempty)
  · intro h hfull
    rw [hlevel]
    exact (d.clockOutput_reload h).trans (if_neg (by rw [hfull]; decide))

end Sys2Proof.Machine
end

section
/-! SUPPORT. The APU's tick and its registers: what a trigger point fires into each channel, the timers, and one effect
for each register (R421 to R425, R430 to R464). -/

namespace Sys2Proof.Machine

/-! ## What a trigger point fires into each channel (R431, R434, R435) -/

theorem lengthClock_eq (halt : Bool) (length : Byte) :
    lengthClock halt length = if length ≠ 0 ∧ halt = false then length - 1 else length := by
  have hpos : length > 0 ↔ length ≠ 0 := by bv_omega
  unfold lengthClock
  simp only [hpos, Bool.not_eq_true']

def Pulse.fire (cfg : Config) (one : Bool) (e : FrameEvents) (p : Pulse) : Pulse :=
  let p := if e.quarter then p.quarter else p
  if e.half then p.half cfg one else p

def Triangle.fire (e : FrameEvents) (t : Triangle) : Triangle :=
  let t := if e.quarter then t.quarter else t
  if e.half then t.half else t

def Noise.fire (e : FrameEvents) (n : Noise) : Noise :=
  let n := if e.quarter then n.quarter else n
  if e.half then n.half else n

/-- A trigger point fires into the four channels of the sequencer and sets the frame IRQ; nothing else changes. -/
theorem Apu.fire_eq (cfg : Config) (u : Apu) (e : FrameEvents) : u.fire cfg e = { u with
    pulse1 := u.pulse1.fire cfg true e, pulse2 := u.pulse2.fire cfg false e
    triangle := u.triangle.fire e, noise := u.noise.fire e
    frameIrq := u.frameIrq || (e.irq && !u.irqInhibit) } := by
  have hevent (w : Apu) : w.frameIrqEvent = { w with frameIrq := w.frameIrq || !w.irqInhibit } := by
    unfold Apu.frameIrqEvent
    split
    · next h => rw [show (!w.irqInhibit) = false by rw [h]; rfl, Bool.or_false]
    · next h => rw [show (!w.irqInhibit) = true by rw [eq_false_of_ne_true h]; rfl, Bool.or_true]
  obtain ⟨quarter, half, irq⟩ := e
  unfold Apu.fire
  cases quarter <;> cases half <;> cases irq <;> simp only [hevent, Bool.false_and, Bool.or_false] <;> rfl

section PulseFire

variable (cfg : Config) (one : Bool) (e : FrameEvents) (p : Pulse)

/-- A half frame clocks the length counter and the sweep, and leaves the rest (R435). -/
theorem Pulse.half_eq : p.half cfg one = { p with
    length := lengthClock p.halt p.length
    timer := (p.half cfg one).timer, swDiv := (p.half cfg one).swDiv, swReload := (p.half cfg one).swReload } := by
  unfold Pulse.half Pulse.sweepClock
  dsimp only
  split <;> rfl

/-- The envelope is no part of a half frame. -/
theorem Pulse.half_quarter : p.quarter.half cfg one = { p.half cfg one with env := p.env.clock p.halt p.vol } := by
  have hmute (x : Byte) (v : Envelope) :
      { p with length := x, env := v }.sweepMute cfg one = { p with length := x }.sweepMute cfg one := rfl
  have htarget (x : Byte) (v : Envelope) :
      { p with length := x, env := v }.target one = { p with length := x }.target one := rfl
  unfold Pulse.quarter Pulse.half Pulse.sweepClock
  simp only [hmute, htarget]
  by_cases h : p.swDiv = 0 ∨ p.swReload = true
  · rw [if_pos h, if_pos h]
  · rw [if_neg h, if_neg h]

/-- What fires changes no divider and no sequencer, nor what the volume is made of but the envelope. -/
theorem Pulse.fire_eq : p.fire cfg one e = { p with
    env := if e.quarter = true then p.env.clock p.halt p.vol else p.env
    length := if e.half = true then lengthClock p.halt p.length else p.length
    timer := if e.half = true then (p.half cfg one).timer else p.timer
    swDiv := if e.half = true then (p.half cfg one).swDiv else p.swDiv
    swReload := if e.half = true then (p.half cfg one).swReload else p.swReload } := by
  unfold Pulse.fire
  dsimp only
  cases e.quarter <;> cases e.half
  · rfl
  · exact p.half_eq cfg one
  · rfl
  · refine (p.half_quarter cfg one).trans ?_
    rw [p.half_eq cfg one]
    rfl

end PulseFire

theorem Triangle.quarter_linCount (t : Triangle) : t.quarter.linCount =
    if t.linReload = true then t.linReloadVal else BitVec.ofNat 7 (t.linCount.toNat - 1) := by
  have hstep : (if t.linCount > 0 then t.linCount - 1 else t.linCount) = BitVec.ofNat 7 (t.linCount.toNat - 1) := by
    split <;> bv_omega
  rw [← hstep]
  rfl

theorem Triangle.fire_eq (e : FrameEvents) (t : Triangle) : t.fire e = { t with
    length := if e.half = true then lengthClock t.halt t.length else t.length
    linCount := if e.quarter = true then t.quarter.linCount else t.linCount
    linReload := if e.quarter = true then t.linReload && t.halt else t.linReload } := by
  unfold Triangle.fire
  dsimp only
  cases e.quarter <;> cases e.half <;> rfl

theorem Noise.fire_eq (e : FrameEvents) (n : Noise) : n.fire e = { n with
    length := if e.half = true then lengthClock n.halt n.length else n.length
    env := if e.quarter = true then n.env.clock n.halt n.vol else n.env } := by
  unfold Noise.fire
  dsimp only
  cases e.quarter <;> cases e.half <;> rfl

/-! ## The timers (R441) -/

/-- A timer's divider after a tick: it reloads at 0. -/
def timerNext (div period : Nat) : Nat := if div = 0 then period - 1 else div - 1

theorem Pulse.timerTick_eq (p : Pulse) : p.timerTick = { p with
    div := timerNext p.div (2 * (p.timer.toNat + 1)), seq := if p.div = 0 then p.seq + 1 else p.seq } := by
  unfold Pulse.timerTick timerNext
  split <;> rfl

theorem Triangle.timerTick_eq (t : Triangle) : t.timerTick = { t with
    div := timerNext t.div (t.timer.toNat + 1)
    seq := if t.div = 0 ∧ t.linCount ≠ 0 ∧ t.length ≠ 0 then t.seq + 1 else t.seq } := by
  have hlin : t.linCount > 0 ↔ t.linCount ≠ 0 := by bv_omega
  have hlen : t.length > 0 ↔ t.length ≠ 0 := by bv_omega
  unfold Triangle.timerTick timerNext
  simp only [hlin, hlen]
  by_cases h : t.div = 0
  · simp only [h, if_true, true_and]
  · simp only [h, if_false, false_and]

theorem Noise.timerTick_eq (n : Noise) : n.timerTick = { n with
    div := timerNext n.div (noisePeriods.getD n.periodIdx.toNat 1)
    lfsr := if n.div = 0 then lfsrStep n.mode n.lfsr else n.lfsr } := by
  unfold Noise.timerTick timerNext
  split <;> rfl

theorem Dmc.timerTick_eq (d : Dmc) : d.timerTick =
    let t : Dmc := { d with div := timerNext d.div (dmcRates.getD d.rateIdx.toNat 1) }
    if d.div = 0 then t.clockOutput else t := by
  unfold Dmc.timerTick timerNext
  dsimp only
  split <;> rfl

/-- A step of the noise register, bit by bit (R457). -/
theorem bit_lfsrStep (mode : Bool) (l : BitVec 15) (i : Nat) : bit (lfsrStep mode l) i =
    if i = 14 then bit l 0 ^^ bit l (if mode = true then 6 else 1) else bit l (i + 1) := by
  have hfb : (if mode = true then bit l 6 else bit l 1) = bit l (if mode = true then 6 else 1) := by
    cases mode <;> rfl
  unfold lfsrStep
  rw [hfb]
  generalize (bit l 0 ^^ bit l (if mode = true then 6 else 1)) = fb
  have hbit : bit ((l >>> 1) ||| (ofBit 15 fb <<< 14)) i =
      (bit l (1 + i) || (decide (i < 15) && !decide (i < 14) && bit (ofBit 15 fb) (i - 14))) := by simp [bit]
  rw [hbit]
  by_cases h : i = 14
  · subst h
    cases fb <;> simp [bit, ofBit]
  · rw [if_neg h, Nat.add_comm]
    by_cases hlt : i < 14
    · simp [hlt]
    · simp [show ¬ i < 15 by omega]

/-! ## One tick (R430) -/

section Tick

variable (cfg : Config) (u : Apu)

/-- The events of the tick that an APU is about to make. -/
def Apu.events : FrameEvents := frameEvents u.fsMode (u.fsCount + 1)

/-- The tick without the outputs. -/
def Apu.ticked : Apu := { u with
  pulse1 := (u.pulse1.fire cfg true u.events).timerTick, pulse2 := (u.pulse2.fire cfg false u.events).timerTick
  triangle := (u.triangle.fire u.events).timerTick, noise := (u.noise.fire u.events).timerTick
  dmc := u.dmc.timerTick
  fsCount := if u.fsCount + 1 = frameLength u.fsMode then 0 else u.fsCount + 1
  frameIrq := u.frameIrq || (u.events.irq && !u.irqInhibit) }

/-- An APU tick: the events into the channels, the timers, then the outputs. -/
theorem Apu.tick_eq : u.tick cfg = { u.ticked cfg with mixed := (u.ticked cfg).outputs cfg } := by
  have h : (u.frameSequencerTick cfg).timerTicks = u.ticked cfg := by
    unfold Apu.frameSequencerTick
    dsimp only
    rw [Apu.fire_eq]
    rfl
  unfold Apu.tick
  rw [h]

end Tick

section Clock

variable {s : State}

theorem dmcReaderCheck_apu (s : State) : (dmcReaderCheck s).apu = s.apu := by
  unfold dmcReaderCheck
  split <;> rfl

theorem apuClock_off_tick (h : s.sysclk % 3 ≠ 0) : apuClock s = s := if_neg h

theorem apuClock_on_tick (h : s.sysclk % 3 = 0) : apuClock s = dmcReaderCheck { s with apu := s.apu.tick s.cfg } :=
  if_pos h

theorem apuClock_apu (h : s.sysclk % 3 = 0) : (apuClock s).apu = s.apu.tick s.cfg := by
  rw [apuClock_on_tick h, dmcReaderCheck_apu]

/-- The DMC reader's request (R464, R288). -/
theorem dmcReaderCheck_eq (s : State) : dmcReaderCheck s = { s with
    cpu :=
      if s.apu.dmc.bufferEmpty = true ∧ s.apu.dmc.bytesRemaining ≠ 0 ∧ s.cpu.dmcFetchPending = false then
        { s.cpu with dmcFetchPending := true, dmcFetchAddr := s.apu.dmc.curAddr }
      else s.cpu } := by
  have h : s.apu.dmc.wantsFetch s.cpu.dmcFetchPending = true ↔
      s.apu.dmc.bufferEmpty = true ∧ s.apu.dmc.bytesRemaining ≠ 0 ∧ s.cpu.dmcFetchPending = false := by
    simp [Dmc.wantsFetch, and_assoc]
  unfold dmcReaderCheck
  simp only [h]
  split <;> rfl

end Clock

/-- Settles O52: `Apu.tick_eq`, the events in the words of `frameEvents_eq`, and what each channel takes of them. -/
theorem frameSequencer : Obligations.FrameSequencer := by
  unfold Obligations.FrameSequencer
  intro s hclk u t n half quarter irq counted
  have ht : t = { u.ticked s.cfg with mixed := (u.ticked s.cfg).outputs s.cfg } := (apuClock_apu hclk).trans (u.tick_eq s.cfg)
  have hevents : u.events = ⟨decide quarter, decide half, decide (u.fsMode = false ∧ 29828 ≤ n ∧ n ≤ 29830)⟩ :=
    frameEvents_eq u.fsMode n
  have hq : u.events.quarter = true ↔ quarter := by rw [hevents]; exact decide_eq_true_iff
  have hh : u.events.half = true ↔ half := by rw [hevents]; exact decide_eq_true_iff
  have hcounted : lengthClock = counted := by
    funext halt length
    exact lengthClock_eq halt length
  rw [ht]
  unfold Apu.ticked
  simp only [Pulse.timerTick_eq, Pulse.fire_eq, Triangle.timerTick_eq, Triangle.fire_eq, Noise.timerTick_eq, Noise.fire_eq,
    hq, hh, hcounted]
  refine ⟨rfl, ?irq, fun h => ?half, fun h => ?notHalf, fun h => ?quarter, fun h => ?notQuarter⟩
  case irq =>
    rw [hevents]
    simp [irq]
    tauto
  case half => simp only [h, if_true, and_self]
  case notHalf => simp only [h, if_false, and_self]
  case quarter =>
    simp only [h, if_true, true_and, Triangle.quarter_linCount]
    split
    · rfl
    · bv_omega
  case notQuarter => simp only [h, if_false, and_self]

end Sys2Proof.Machine
end

section
/-! SUPPORT. The APU's outputs and the DMC reader's request in a tick (R441 to R464). -/

namespace Sys2Proof.Machine

/-! ## The channels after a tick, as numbers -/

theorem Pulse.fire_timerTick (cfg : Config) (one : Bool) (e : FrameEvents) (p : Pulse) :
    let t := (p.fire cfg one e).timerTick
    t.div = timerNext p.div (2 * (t.timer.toNat + 1)) ∧
      t.seq.toNat = (p.seq.toNat + if p.div = 0 then 1 else 0) % 8 := by
  intro t
  have ht : t = (p.fire cfg one e).timerTick := rfl
  have hdiv : (p.fire cfg one e).div = p.div := by rw [p.fire_eq cfg one e]
  have hseq : (p.fire cfg one e).seq = p.seq := by rw [p.fire_eq cfg one e]
  rw [ht, Pulse.timerTick_eq, hdiv, hseq]
  refine ⟨rfl, ?_⟩
  dsimp only
  split <;> bv_omega

theorem Triangle.fire_timerTick (e : FrameEvents) (p : Triangle) :
    let t := (p.fire e).timerTick
    t.div = timerNext p.div (t.timer.toNat + 1) ∧
      t.seq.toNat = (p.seq.toNat + if p.div = 0 ∧ t.linCount ≠ 0 ∧ t.length ≠ 0 then 1 else 0) % 32 := by
  intro t
  have ht : t = (p.fire e).timerTick := rfl
  have hdiv : (p.fire e).div = p.div := by rw [p.fire_eq e]
  have hseq : (p.fire e).seq = p.seq := by rw [p.fire_eq e]
  rw [ht, Triangle.timerTick_eq, hdiv, hseq]
  refine ⟨rfl, ?_⟩
  dsimp only
  split <;> bv_omega

theorem Noise.fire_timerTick (e : FrameEvents) (n : Noise) :
    let t := (n.fire e).timerTick
    t.div = timerNext n.div (noisePeriods.getD n.periodIdx.toNat 1) ∧
      ∀ i, i < 15 → bit t.lfsr i =
        if n.div ≠ 0 then bit n.lfsr i
        else if i = 14 then bit n.lfsr 0 ^^ bit n.lfsr (if n.mode = true then 6 else 1)
        else bit n.lfsr (i + 1) := by
  intro t
  have ht : t = (n.fire e).timerTick := rfl
  rw [ht, Noise.timerTick_eq, n.fire_eq e]
  refine ⟨rfl, fun i _ => ?_⟩
  rw [← bit_lfsrStep]
  dsimp only
  by_cases h : n.div = 0
  · rw [if_pos h, if_neg (not_not.2 h)]
  · rw [if_neg h, if_pos h]

/-! ## The outputs (R449, R453, R458) -/

/-- `DUTY` as the bits of four numbers (R449). -/
theorem dutyBit_eq (duty : BitVec 2) (seq : BitVec 3) : dutyBit duty seq =
    (([0b00000010, 0b00000110, 0b00011110, 0b11111001] : List Nat).getD duty.toNat 0).testBit seq.toNat := by
  revert duty seq; decide

theorem triangleOf_toNat (seq : BitVec 5) :
    (triangleOf seq).toNat = if seq.toNat < 16 then 15 - seq.toNat else seq.toNat - 16 := by
  revert seq; decide

theorem Pulse.out_eq (cfg : Config) (one : Bool) (p : Pulse) : p.out cfg one =
    if p.length = 0 ∨ p.sweepMute cfg one = true ∨
        (([0b00000010, 0b00000110, 0b00011110, 0b11111001] : List Nat).getD p.duty.toNat 0).testBit p.seq.toNat = false
      then 0
    else if p.constVol = true then p.vol
    else p.env.decay := by
  unfold Pulse.out Envelope.volume
  simp only [dutyBit_eq, Bool.not_eq_true']

/-- Settles O41: `Apu.tick_eq`, then each channel after its events and its timer, its output, and the reader's request. -/
theorem apuTimersAndOutputs : Obligations.ApuTimersAndOutputs := by
  unfold Obligations.ApuTimersAndOutputs
  intro s u t noise rate duty next pulseOut
  refine ⟨apuClock_off_tick, fun hclk => ?_⟩
  have ht : t = { u.ticked s.cfg with mixed := (u.ticked s.cfg).outputs s.cfg } :=
    (apuClock_apu hclk).trans (u.tick_eq s.cfg)
  have hclock : apuClock s = { s with
      apu := t
      cpu :=
        if t.dmc.bufferEmpty = true ∧ t.dmc.bytesRemaining ≠ 0 ∧ s.cpu.dmcFetchPending = false then
          { s.cpu with dmcFetchPending := true, dmcFetchAddr := t.dmc.curAddr }
        else s.cpu } := by
    rw [show t = s.apu.tick s.cfg from apuClock_apu hclk, apuClock_on_tick hclk, dmcReaderCheck_eq]
  obtain ⟨hp1div, hp1seq⟩ := u.pulse1.fire_timerTick s.cfg true u.events
  obtain ⟨hp2div, hp2seq⟩ := u.pulse2.fire_timerTick s.cfg false u.events
  obtain ⟨htdiv, htseq⟩ := u.triangle.fire_timerTick u.events
  obtain ⟨hndiv, hnlfsr⟩ := u.noise.fire_timerTick u.events
  refine ⟨?_, ?_, ?_, ?_, ?_, ?_, ?_, ?_, ?_, ?_, ?_, ?_, ?_, ?_, hclock⟩
  all_goals rw [ht]
  · exact hp1div
  · exact hp1seq
  · exact hp2div
  · exact hp2seq
  · exact htdiv
  · exact htseq
  · exact hndiv
  · exact hnlfsr
  · exact u.dmc.timerTick_eq
  · exact Pulse.out_eq s.cfg true _
  · exact Pulse.out_eq s.cfg false _
  · exact triangleOf_toNat _
  · rfl
  · rfl

end Sys2Proof.Machine
end

section
/-! SUPPORT. The APU's registers (R421 to R425): what a write leaves of each channel. -/

namespace Sys2Proof.Machine

/-! ## Fields of a byte as numbers -/

theorem field_eq_ofNat {w : Nat} (v : BitVec w) (lo len : Nat) : field v lo len = BitVec.ofNat len (v.toNat / 2 ^ lo) := by
  apply BitVec.eq_of_toNat_eq
  rw [toNat_field, BitVec.toNat_ofNat]

theorem field_zero_eq_ofNat {w : Nat} (v : BitVec w) (len : Nat) : field v 0 len = BitVec.ofNat len v.toNat := by
  rw [field_eq_ofNat, pow_zero, Nat.div_one]

theorem timer_low_eq (t : BitVec 11) (d : Byte) : putField t 0 d = BitVec.ofNat 11 (t.toNat / 256 * 256 + d.toNat) := by
  apply BitVec.eq_of_toNat_eq
  rw [toNat_putField _ _ _ (by decide), BitVec.toNat_ofNat]
  norm_num
  omega

theorem timer_high_eq (t : BitVec 11) (d : Byte) :
    putField t 8 (field d 0 3 : BitVec 3) = BitVec.ofNat 11 (d.toNat % 8 * 256 + t.toNat % 256) := by
  have ht := t.isLt
  apply BitVec.eq_of_toNat_eq
  rw [toNat_putField _ _ _ (by decide), toNat_field, BitVec.toNat_ofNat]
  norm_num
  omega

theorem sampleAddr_eq (d : Byte) : (0xC000 : Word) + (d.setWidth 16 <<< 6) = BitVec.ofNat 16 (0xC000 + 64 * d.toNat) := by
  revert d; decide

theorem sampleLen_eq (d : Byte) : ((d.setWidth 12 <<< 4) + 1 : BitVec 12) = BitVec.ofNat 12 (16 * d.toNat + 1) := by
  revert d; decide

/-! ## One access (R74) -/

section Access

variable (v : Byte) (s : State)

/-- A write to $4000 to $4013 is the APU's alone (R421). -/
theorem busWrite_apuReg (k : Nat) (hk : k < 0x14) :
    busWrite (BitVec.ofNat 16 (0x4000 + k)) v s = { s with apu := s.apu.writeReg (BitVec.ofNat 5 k) v } := by
  have ha : (BitVec.ofNat 16 (0x4000 + k)).toNat = 0x4000 + k := by rw [BitVec.toNat_ofNat]; omega
  have hreg : (field (BitVec.ofNat 16 (0x4000 + k)) 0 5 : BitVec 5) = BitVec.ofNat 5 k := by
    apply BitVec.eq_of_toNat_eq
    rw [toNat_field, ha, BitVec.toNat_ofNat]
    omega
  rw [busWrite_low v s (by bv_omega), deviceWrite, if_neg (by bv_omega), if_neg (by bv_omega), if_pos (by bv_omega), hreg]

theorem busWrite_apuStatus : busWrite 0x4015 v s = { s with apu := s.apu.writeStatus v } :=
  busWrite_low v s (a := 0x4015) (by decide)

theorem busWrite_frameCounter : busWrite 0x4017 v s = { s with apu := s.apu.writeFrameCounter s.cfg v } :=
  busWrite_low v s (a := 0x4017) (by decide)

theorem busRead_apuStatus : busRead 0x4015 s = (s.apu.readStatus.1, { s with apu := s.apu.readStatus.2 }) :=
  busRead_low s (a := 0x4015) (by decide)

end Access

/-! ## $4015 (R423) -/

/-- The bits of the status byte. -/
theorem bit_statusByte (b₇ b₆ b₄ b₃ b₂ b₁ b₀ : Bool) :
    let v := ofBit 8 b₇ <<< 7 ||| ofBit 8 b₆ <<< 6 ||| ofBit 8 b₄ <<< 4 ||| ofBit 8 b₃ <<< 3 ||| ofBit 8 b₂ <<< 2 |||
      ofBit 8 b₁ <<< 1 ||| ofBit 8 b₀
    bit v 7 = b₇ ∧ bit v 6 = b₆ ∧ bit v 5 = false ∧ bit v 4 = b₄ ∧ bit v 3 = b₃ ∧ bit v 2 = b₂ ∧ bit v 1 = b₁ ∧
      bit v 0 = b₀ := by
  revert b₇ b₆ b₄ b₃ b₂ b₁ b₀; decide

theorem Dmc.enable_eq (c : Dmc) (on : Bool) : c.enable on = { c with
    irq := false
    curAddr := if on = true ∧ c.bytesRemaining = 0 then c.sampleAddr else c.curAddr
    bytesRemaining := if on = false then 0 else if c.bytesRemaining = 0 then c.sampleLen else c.bytesRemaining } := by
  unfold Dmc.enable
  dsimp only
  cases on
  · rfl
  · by_cases h : c.bytesRemaining = 0
    · simp [Dmc.restart, h]
    · simp only [h, Bool.not_true, Bool.true_eq_false, Bool.false_eq_true, if_false, and_false]

/-! ## $4017 (R424) -/

/-- A quarter and a half frame of a pulse, in the words of its half frame. -/
theorem Pulse.half_quarter_eq (cfg : Config) (one : Bool) (p : Pulse) : p.quarter.half cfg one =
    { p.half cfg one with length := lengthClock p.halt p.length, env := p.env.clock p.halt p.vol } := by
  rw [Pulse.half_quarter, p.half_eq cfg one]

theorem Triangle.half_quarter_eq (t : Triangle) : t.quarter.half = { t with
    length := lengthClock t.halt t.length
    linCount := if t.linReload = true then t.linReloadVal else BitVec.ofNat 7 (t.linCount.toNat - 1)
    linReload := t.linReload && t.halt } := by
  rw [← t.quarter_linCount]
  rfl

/-- Settles O51: each register's one effect, its fields and its timer written as numbers. -/
theorem apuRegisters : Obligations.ApuRegisters := by
  unfold Obligations.ApuRegisters
  intro s d r u n apu at_ table length low high counted
  have hlength : length = fun enabled old => lengthLoaded enabled old d := by
    funext enabled old
    unfold lengthLoaded lengthOf
    rw [toNat_field, Nat.mod_eq_of_lt (by have := d.isLt; omega)]
    rfl
  have hlow : low = fun t => putField t 0 d := funext fun t => (timer_low_eq t d).symm
  have hhigh : high = fun t => putField t 8 (field d 0 3 : BitVec 3) := funext fun t => (timer_high_eq t d).symm
  have hcounted : counted = lengthClock := by
    funext halt length
    exact (lengthClock_eq halt length).symm
  have hreg (k : Nat) (hk : k < 0x14) : at_ k = apu (u.writeReg (BitVec.ofNat 5 k) d) := busWrite_apuReg d s k hk
  rw [hlength, hlow, hhigh, hcounted]
  unfold n
  simp only [← field_zero_eq_ofNat]
  have hduty : BitVec.ofNat 2 (d.toNat / 64) = field d 6 2 := (field_eq_ofNat d 6 2).symm
  have hperiod : BitVec.ofNat 3 (d.toNat / 16) = field d 4 3 := (field_eq_ofNat d 4 3).symm
  rw [hduty, hperiod, ← sampleAddr_eq, ← sampleLen_eq]
  refine ⟨?read, ?enable, ?pulses, hreg 0x08 (by decide), hreg 0x09 (by decide), hreg 0x0A (by decide),
    hreg 0x0B (by decide), hreg 0x0C (by decide), hreg 0x0D (by decide), hreg 0x0E (by decide), hreg 0x0F (by decide),
    hreg 0x10 (by decide), hreg 0x11 (by decide), hreg 0x12 (by decide), hreg 0x13 (by decide), busRead_pad true s,
    ?fourStep, ?fiveStep⟩
  case read =>
    have hr : r = (u.readStatus.1, { s with apu := u.readStatus.2 }) := busRead_apuStatus s
    rw [hr]
    obtain ⟨h7, h6, h5, h4, h3, h2, h1, h0⟩ := bit_statusByte u.dmc.irq u.frameIrq (u.dmc.bytesRemaining != 0)
      (u.noise.length != 0) (u.triangle.length != 0) (u.pulse2.length != 0) (u.pulse1.length != 0)
    exact ⟨rfl, h7, h6, h5, h4 ▸ bne_iff_ne, h3 ▸ bne_iff_ne, h2 ▸ bne_iff_ne, h1 ▸ bne_iff_ne, h0 ▸ bne_iff_ne⟩
  case enable =>
    rw [← Dmc.enable_eq]
    exact busWrite_apuStatus d s
  case pulses =>
    intro second
    cases second
    · exact ⟨hreg 0 (by decide), hreg 1 (by decide), hreg 2 (by decide), hreg 3 (by decide)⟩
    · exact ⟨hreg 4 (by decide), hreg 5 (by decide), hreg 6 (by decide), hreg 7 (by decide)⟩
  case fourStep =>
    intro h
    have hw : at_ 0x17 = apu (u.writeFrameCounter s.cfg d) := busWrite_frameCounter d s
    rw [hw, Apu.writeFrameCounter, if_neg (by rw [h]; decide)]
  case fiveStep =>
    intro h
    have hw : at_ 0x17 = apu (u.writeFrameCounter s.cfg d) := busWrite_frameCounter d s
    rw [hw, Apu.writeFrameCounter, if_pos h, ← Pulse.half_quarter_eq, ← Pulse.half_quarter_eq, ← Triangle.half_quarter_eq]
    rfl

end Sys2Proof.Machine
end

section
/-! SUPPORT. The cartridge on the two buses (R495 to R502): what a write leaves of it, and where the mappers' addresses
point, as numbers. -/

namespace Sys2Proof.Machine

/-! ## Parts of an address as numbers -/

theorem and_low_toNat {w : Nat} (a m : BitVec w) (n : Nat) (hm : m.toNat = 2 ^ n - 1) : (a &&& m).toNat = a.toNat % 2 ^ n := by
  rw [BitVec.toNat_and, hm, Nat.and_two_pow_sub_one_eq_mod]

section Ranges

variable {a : Word}

/-- The 8 KB range that a mapper's register or bank lies in. -/
theorem field_13_toNat (h : 0x8000 ≤ a) : (field a 13 2 : BitVec 2).toNat = a.toNat / 8192 - 4 := by
  rw [toNat_field]
  bv_omega

theorem bit_14_eq (h : 0x8000 ≤ a) : bit a 14 = decide (0xC000 ≤ a) := by
  rw [bit_toNat]
  have hiff : a.toNat / 2 ^ 14 % 2 = 1 ↔ 0xC000 ≤ a := by bv_omega
  simp only [hiff]

theorem field_zero_toNat {w : Nat} (v : BitVec w) (len : Nat) : (field v 0 len).toNat = v.toNat % 2 ^ len := by
  rw [toNat_field, pow_zero, Nat.div_one]

end Ranges

/-! ## Writes (R499, R502) -/

section Writes

variable {s : State} {c : Cartridge} {a : Word}

theorem busWrite_cartridge (hc : s.cart = some c) (h : 0x6000 ≤ a) (v : Byte) : busWrite a v s = s.cartWrite c a v := by
  unfold busWrite
  rw [hc]
  exact if_pos h

/-- A write from $8000 on reaches the mapper's registers alone. -/
theorem busWrite_mapper_cart (hc : s.cart = some c) (h : 0x8000 ≤ a) (v : Byte) :
    (busWrite a v s).cart = some { c with mapper := c.mapper.write a v } := by
  rw [busWrite_cartridge hc (by bv_omega), State.cartWrite_cart, Cartridge.cpuWrite, if_neg (by bv_omega)]

/-- A bus conflict is counted when the mapper has them and the ROM drives another byte (R502). -/
theorem busWrite_mapper_eq (hc : s.cart = some c) (h : 0x8000 ≤ a) (v : Byte) : busWrite a v s = { s with
    cart := some { c with mapper := c.mapper.write a v }
    busConflicts := s.busConflicts +
      if c.mapperId ∈ s.cfg.busConflictMappers ∧ (busRead a s).1 ≠ v then 1 else 0 } := by
  have hcart := busWrite_mapper_cart hc h v
  have hrom : (busRead a s).1 = Store.read c.prgRom (c.prgOffset a) := by
    rw [busRead_prgRom hc h]
    simp only [State.cell, hc]
  have hconflict : 0x8000 ≤ a ∧ c.busConflict s.cfg a v = true ↔
      c.mapperId ∈ s.cfg.busConflictMappers ∧ (busRead a s).1 ≠ v := by
    rw [and_iff_right h, hrom]
    simp [Cartridge.busConflict]
  rw [← hcart, busWrite_cartridge hc (by bv_omega)]
  unfold State.cartWrite
  simp only [hconflict]
  split <;> rfl

end Writes

/-! ## Reads (R498, R500) -/

/-- A read of pattern memory is the cartridge's CHR (R500). -/
theorem ppuRead_chr {s : State} {c : Cartridge} (hc : s.cart = some c) (q : Ppu) {p : PpuAddr} (h : p < 0x2000) :
    ppuRead s.cart q p = s.cell (.chr (c.chrOffset p)) := by
  have hread : c.ppuRead p = some (Store.read c.chr (c.chrOffset p)) := if_pos h
  simp [ppuRead, State.cell, hc, hread]

/-- Settles O56: in the window a read is the cell of the address and a write stores to it, and a reset keeps the cells. -/
theorem prgRamReadsBack : Obligations.PrgRamReadsBack := by
  unfold Obligations.PrgRamReadsBack
  intro s c a b v hc ha ha' hb hb'
  have hcart : (busWrite a v s).cart = some (c.cpuWrite a v) := by rw [busWrite_cartridge hc ha, State.cartWrite_cart]
  have hreset : (busReset (busWrite a v s)).cart = some (c.cpuWrite a v).reset := by rw [busReset_eq, hcart]; rfl
  have hsame : a.toNat - 0x6000 = b.toNat - 0x6000 ↔ b = a := by bv_omega
  have hcell : (busWrite a v s).cell (.prgRam (b.toNat - 0x6000)) = if b = a then v else (busRead b s).1 := by
    rw [busWrite_cell, storedCell_prgRam hc ha ha', busRead_prgRam hc hb hb']
    simp only [Option.some.injEq, MemCell.prgRam.injEq, hsame]
  refine ⟨?_, ?_, by rw [busWrite_cartridge hc ha, State.cartWrite_cpu]⟩
  · rw [busRead_prgRam hcart hb hb', hcell]
  · rw [busRead_prgRam hreset hb hb', (cartCells_of_reset (congrArg State.cart (busReset_eq _)) _).1, hcell]

end Sys2Proof.Machine
end

section
/-! SUPPORT. Mappers 000, 002 and 003 (R505, R520, R525) and mapper 001 (R510 to R514). -/

namespace Sys2Proof.Machine

/-! ## The discrete mappers -/

section Discrete

variable {c : Cartridge}

/-- 32 KB of PRG, or one bank of 16 KB twice (R505). -/
theorem prgMask_toNat (a : Word) (n : Nat) : (a &&& (if n > 1 then 0x7FFF else 0x3FFF)).toNat =
    if 1 < n then a.toNat % 32768 else a.toNat % 16384 := by
  split
  · exact and_low_toNat a _ 15 rfl
  · exact and_low_toNat a _ 14 rfl

theorem Cartridge.prgOffset_m000 (hm : c.mapper = .m000) (a : Word) :
    c.prgOffset a = if 1 < c.nPrg then a.toNat % 32768 else a.toNat % 16384 := by
  unfold Cartridge.prgOffset
  rw [hm]
  exact prgMask_toNat a c.nPrg

theorem Cartridge.prgOffset_m003 {k : BitVec 2} (hm : c.mapper = .m003 k) (a : Word) :
    c.prgOffset a = if 1 < c.nPrg then a.toNat % 32768 else a.toNat % 16384 := by
  unfold Cartridge.prgOffset
  rw [hm]
  exact prgMask_toNat a c.nPrg

theorem Cartridge.prgOffset_m002 {k : BitVec 4} (hm : c.mapper = .m002 k) {a : Word} (h : 0x8000 ≤ a) :
    c.prgOffset a = a.toNat % 16384 + 16384 * if a.toNat < 0xC000 then k.toNat % c.nPrg else c.nPrg - 1 := by
  have hlow : (a &&& 0x3FFF).toNat = a.toNat % 16384 := and_low_toNat a _ 14 rfl
  unfold Cartridge.prgOffset
  rw [hm]
  dsimp only
  rw [bit_14_eq h, hlow, Nat.add_comm, Nat.mul_comm]
  by_cases hupper : (0xC000 : Word) ≤ a
  · rw [decide_eq_true hupper, if_pos rfl, if_neg (by bv_omega)]
  · rw [decide_eq_false hupper, if_neg nofun, if_pos (by bv_omega)]

theorem Cartridge.chrOffset_m000 (hm : c.mapper = .m000) (p : PpuAddr) : c.chrOffset p = p.toNat := by
  unfold Cartridge.chrOffset
  rw [hm]

theorem Cartridge.chrOffset_m002 {k : BitVec 4} (hm : c.mapper = .m002 k) (p : PpuAddr) : c.chrOffset p = p.toNat := by
  unfold Cartridge.chrOffset
  rw [hm]

theorem Cartridge.chrOffset_m003 {k : BitVec 2} (hm : c.mapper = .m003 k) (p : PpuAddr) :
    c.chrOffset p = p.toNat + 8192 * (k.toNat % if c.chrIsRam = true then 1 else c.nChr) := by
  unfold Cartridge.chrOffset
  rw [hm]
  dsimp only
  rw [Nat.add_comm, Nat.mul_comm]
  rfl

end Discrete

/-- Settles O58: the write is `busWrite_mapper_eq`, and the reads after it go by the bank it set. -/
theorem discreteMappers : Obligations.DiscreteMappers := by
  unfold Obligations.DiscreteMappers
  intro s c a b p d hc ha hb hp _ _ t conflict
  have hwrite := busWrite_mapper_eq hc ha d
  have hcart := busWrite_mapper_cart hc ha d
  have hrom (i : Nat) : t.cell (.prgRom i) = s.cell (.prgRom i) := by simp only [State.cell, t, hcart, hc]
  have hchr (i : Nat) : t.cell (.chr i) = s.cell (.chr i) := by simp only [State.cell, t, hcart, hc]
  rw [busRead_prgRom hcart hb, ppuRead_chr hcart _ hp, hrom, hchr]
  refine ⟨fun hm => ?m000, fun k hm => ?m002, fun k hm => ?m003⟩
  case m000 =>
    have hm' : c.mapper.write a d = .m000 := by rw [hm]; rfl
    have hid : c.mapperId = .m000 := by unfold Cartridge.mapperId; rw [hm]
    have hsame : some { c with mapper := c.mapper.write a d } = s.cart := by rw [hc, hm', ← hm]
    rw [Cartridge.prgOffset_m000 hm', Cartridge.chrOffset_m000 hm', ← hid]
    refine ⟨hwrite.trans ?_, rfl, rfl⟩
    rw [hsame]
  case m002 =>
    have hm' : c.mapper.write a d = .m002 (field d 0 4) := by rw [hm]; rfl
    have hid : c.mapperId = .m002 := by unfold Cartridge.mapperId; rw [hm]
    rw [Cartridge.prgOffset_m002 hm' hb, Cartridge.chrOffset_m002 hm', field_zero_toNat, ← hid]
    exact ⟨congrArg State.busConflicts hwrite, rfl, rfl⟩
  case m003 =>
    have hm' : c.mapper.write a d = .m003 (field d 0 2) := by rw [hm]; rfl
    have hid : c.mapperId = .m003 := by unfold Cartridge.mapperId; rw [hm]
    rw [Cartridge.prgOffset_m003 hm', Cartridge.chrOffset_m003 hm', field_zero_toNat, ← hid]
    exact ⟨congrArg State.busConflicts hwrite, rfl, rfl⟩

/-! ## Mapper 001's serial port (R511) -/

/-- One bit into the shift register. -/
def mmc1ShiftIn (sr : BitVec 5) (d : Byte) : BitVec 5 := (sr >>> 1) ||| (ofBit 5 (bit d 0) <<< 4)

theorem mmc1ShiftIn_toNat (sr : BitVec 5) (d : Byte) : (mmc1ShiftIn sr d).toNat = sr.toNat / 2 + 16 * (d.toNat % 2) := by
  have hbit : ∀ (sr : BitVec 5) (b : Bool), ((sr >>> 1) ||| (ofBit 5 b <<< 4)).toNat = sr.toNat / 2 + 16 * b.toNat := by
    decide
  unfold mmc1ShiftIn
  rw [hbit, toNat_bit, pow_zero, Nat.div_one]

theorem Mmc1.write_reset (r : Mmc1) (a : Word) {d : Byte} (h : bit d 7 = true) :
    r.write a d = { r with sr := 0, srCount := 0, control := r.control ||| 0x0C } := if_pos h

theorem Mmc1.write_bit (r : Mmc1) (a : Word) {d : Byte} (h : bit d 7 = false) (hn : r.srCount < 4) :
    r.write a d = { r with sr := mmc1ShiftIn r.sr d, srCount := r.srCount + 1 } := by
  unfold Mmc1.write
  dsimp only
  rw [if_neg (by rw [h]; decide), if_neg (by omega)]
  rfl

/-- The fifth write loads the register that its address selects. -/
theorem Mmc1.write_load (r : Mmc1) {a : Word} (ha : 0x8000 ≤ a) {d : Byte} (h : bit d 7 = false) (hn : r.srCount = 4) :
    let v := mmc1ShiftIn r.sr d
    let q : Mmc1 := { r with sr := 0, srCount := 0 }
    (a < 0xA000 → r.write a d = { q with control := v, ctrlLoaded := true }) ∧
    (0xA000 ≤ a → a < 0xC000 → r.write a d = { q with chr0 := v }) ∧
    (0xC000 ≤ a → a < 0xE000 → r.write a d = { q with chr1 := v }) ∧
    (0xE000 ≤ a → r.write a d = { q with prg := v }) := by
  have hrange := field_13_toNat ha
  unfold Mmc1.write
  dsimp only
  rw [if_neg (by rw [h]; decide), if_pos (by omega)]
  generalize (field a 13 2 : BitVec 2) = range at hrange ⊢
  refine ⟨fun h1 => ?_, fun h1 h2 => ?_, fun h1 h2 => ?_, fun h1 => ?_⟩
  · rw [if_pos (by bv_omega)]; rfl
  · rw [if_neg (by bv_omega), if_pos (by bv_omega)]; rfl
  · rw [if_neg (by bv_omega), if_neg (by bv_omega), if_pos (by bv_omega)]; rfl
  · rw [if_neg (by bv_omega), if_neg (by bv_omega), if_neg (by bv_omega)]; rfl

/-- Five bits fill the shift register, whatever it held. -/
theorem mmc1ShiftIn_five (sr : BitVec 5) (d₁ d₂ d₃ d₄ d₅ : Byte) :
    mmc1ShiftIn (mmc1ShiftIn (mmc1ShiftIn (mmc1ShiftIn (mmc1ShiftIn sr d₁) d₂) d₃) d₄) d₅ =
      BitVec.ofNat 5 (d₁.toNat % 2 + 2 * (d₂.toNat % 2) + 4 * (d₃.toNat % 2) + 8 * (d₄.toNat % 2) + 16 * (d₅.toNat % 2)) := by
  have hsr := sr.isLt
  apply BitVec.eq_of_toNat_eq
  simp only [mmc1ShiftIn_toNat, BitVec.toNat_ofNat]
  omega

/-! ## Mapper 001's banks (R513, R514) -/

theorem mmc1PrgBank_eq (r : Mmc1) (nPrg : Nat) (upper : Bool) : mmc1PrgBank r nPrg upper =
    match r.control.toNat / 4 % 4 with
    | 3 => if upper = true then nPrg - 1 else r.prg.toNat % 16
    | 2 => if upper = true then r.prg.toNat % 16 else 0
    | _ => r.prg.toNat % 16 / 2 * 2 + upper.toNat := by
  have hmode : (field r.control 2 2 : BitVec 2).toNat = r.control.toNat / 4 % 4 := toNat_field r.control 2 2
  have hprg : (field r.prg 0 4 : BitVec 4).toNat = r.prg.toNat % 16 := field_zero_toNat r.prg 4
  have heven : ∀ b : BitVec 4, (b &&& 0xE).toNat = b.toNat / 2 * 2 := by decide
  have hm3 : (field r.control 2 2 : BitVec 2) = 3 ↔ r.control.toNat / 4 % 4 = 3 := by bv_omega
  have hm2 : (field r.control 2 2 : BitVec 2) = 2 ↔ r.control.toNat / 4 % 4 = 2 := by bv_omega
  unfold mmc1PrgBank
  dsimp only
  rw [heven, hprg]
  simp only [hm3, hm2]
  by_cases h3 : r.control.toNat / 4 % 4 = 3
  · rw [if_pos h3, h3]
    rfl
  · by_cases h2 : r.control.toNat / 4 % 4 = 2
    · rw [if_neg h3, if_pos h2, h2]
      rfl
    · rw [if_neg h3, if_neg h2]
      split
      · contradiction
      · contradiction
      · rfl

theorem mmc1ChrBank_eq (r : Mmc1) (upper : Bool) : mmc1ChrBank r upper =
    if bit r.control 4 = true then (if upper = true then r.chr1.toNat else r.chr0.toNat)
    else r.chr0.toNat / 2 * 2 + upper.toNat := by
  have heven : ∀ b : BitVec 5, (b &&& 0x1E).toNat = b.toNat / 2 * 2 := by decide
  rw [mmc1ChrBank, heven]

/-- Settles O57: five writes by `Mmc1.write_bit` and `Mmc1.write_load`, and the banks as numbers. -/
theorem mmc1SerialAndBanks : Obligations.Mmc1SerialAndBanks := by
  unfold Obligations.Mmc1SerialAndBanks
  constructor
  · intro s c r a₁ a₂ a₃ a₄ a₅ d₁ d₂ d₃ d₄ d₅ hc hm h₁ h₂ h₃ h₄ h₅ after
    have hnext {t : State} {q : Mmc1} {a : Word} (ha : 0x8000 ≤ a) (d : Byte) (h : after t q) :
        after (busWrite a d t) (q.write a d) := busWrite_mapper_cart h ha d
    have hs : after s r := by
      show s.cart = some { c with mapper := .m001 r }
      rw [hc, ← hm]
    refine ⟨fun hreset => r.write_reset a₁ hreset ▸ hnext h₁ d₁ hs, fun hzero hbits => ?_⟩
    intro t v
    simp only [List.forall_mem_cons, List.not_mem_nil, false_implies, implies_true, and_true] at hbits
    obtain ⟨hb₁, hb₂, hb₃, hb₄, hb₅⟩ := hbits
    have ht : after t ((((r.write a₁ d₁).write a₂ d₂).write a₃ d₃).write a₄ d₄ |>.write a₅ d₅) :=
      hnext h₅ d₅ (hnext h₄ d₄ (hnext h₃ d₃ (hnext h₂ d₂ (hnext h₁ d₁ hs))))
    rw [r.write_bit a₁ hb₁ (by omega), Mmc1.write_bit _ a₂ hb₂ (by dsimp only; omega),
      Mmc1.write_bit _ a₃ hb₃ (by dsimp only; omega), Mmc1.write_bit _ a₄ hb₄ (by dsimp only; omega)] at ht
    dsimp only at ht
    obtain ⟨hcontrol, hchr0, hchr1, hprg⟩ := Mmc1.write_load
      { r with sr := mmc1ShiftIn (mmc1ShiftIn (mmc1ShiftIn (mmc1ShiftIn r.sr d₁) d₂) d₃) d₄, srCount := r.srCount + 1 + 1 + 1 + 1 }
      h₅ hb₅ (by dsimp only; omega)
    dsimp only at hcontrol hchr0 hchr1 hprg
    rw [mmc1ShiftIn_five] at hcontrol hchr0 hchr1 hprg
    rw [hzero]
    exact ⟨fun ha => hcontrol ha ▸ ht, fun ha ha' => hchr0 ha ha' ▸ ht, fun ha ha' => hchr1 ha ha' ▸ ht,
      fun ha => hprg ha ▸ ht⟩
  · intro s c r b p hc hm hb hp _ _ reg upper prgBank chrBank
    have hprgLow : (b &&& 0x3FFF).toNat = b.toNat % 16384 := and_low_toNat b _ 14 rfl
    have hchrLow : (p &&& 0x0FFF).toNat = p.toNat % 4096 := and_low_toNat p _ 12 rfl
    have hupper : bit p 12 = decide (¬ p < 0x1000) := by
      have hiff : p.toNat / 2 ^ 12 % 2 = 1 ↔ ¬ p < 0x1000 := by bv_omega
      rw [bit_toNat]
      simp only [hiff]
    have hchrBank : mmc1ChrBank r (bit p 12) = chrBank := by
      rw [mmc1ChrBank_eq, hupper]
      unfold chrBank
      by_cases hlow : p < 0x1000
      · rw [decide_eq_false (not_not.2 hlow), if_pos hlow, if_pos hlow]
        rfl
      · rw [decide_eq_true hlow, if_neg hlow, if_neg hlow]
        rfl
    rw [busRead_prgRom hc hb, ppuRead_chr hc _ hp, Cartridge.prgOffset, Cartridge.chrOffset, hm]
    dsimp only
    rw [bit_14_eq hb, mmc1PrgBank_eq, hchrBank, hprgLow, hchrLow]
    exact ⟨rfl, rfl⟩

end Sys2Proof.Machine
end

section
/-! SUPPORT. Cartridge images (R490 to R493): which headers parse, and the cartridge of an image that loads. -/

namespace Sys2Proof.Machine

/-! ## The header (R490, R493) -/

/-- The mapper's number: the high halves of flag bytes 7 and 6 (R490). -/
theorem mapperNumber_eq (f₆ f₇ : Byte) :
    ((f₇ &&& 0xF0) ||| (f₆ >>> 4)).toNat = f₇.toNat / 16 * 16 + f₆.toNat / 16 := by
  have hhigh : ∀ f : Byte, (f &&& 0xF0).toNat = 2 ^ 4 * (f.toNat / 16) := by decide
  have hlow : (f₆ >>> 4).toNat = f₆.toNat / 16 := by rw [BitVec.toNat_ushiftRight, Nat.shiftRight_eq_div_pow]
  have hlt : f₆.toNat / 16 < 2 ^ 4 := by have := f₆.isLt; omega
  show ((f₇ &&& (0xF0 : Byte)) ||| (f₆ >>> 4)).toNat = _
  rw [BitVec.toNat_or, hhigh, hlow, ← Nat.two_pow_add_eq_or_of_lt hlt, Nat.mul_comm]

theorem MapperId.ofNat?_eq_some_iff (n : Nat) : (∃ m, MapperId.ofNat? n = some m) ↔ n ≤ 4 := by
  unfold MapperId.ofNat?
  repeat' split
  all_goals simp
  all_goals omega

/-- A mapper's registers at insertion (R549). -/
theorem mapperReset_of_ofNat? {n : Nat} {m : MapperId} (h : MapperId.ofNat? n = some m) :
    [Mapper.m000, .m001 ⟨0, 0, 0x0C, 0, 0, 0, false⟩, .m002 0, .m003 0,
      .m004 ⟨0, [0, 2, 4, 5, 6, 7, 0, 1], 0, 0, false, false, false, false, .vertical⟩][n]? = some (.reset m) := by
  have hn : n ≤ 4 := (MapperId.ofNat?_eq_some_iff n).1 ⟨m, h⟩
  interval_cases n <;> cases h <;> rfl

theorem exists_of_length_eq_16 {l : List Byte} (h : l.length = 16) :
    ∃ a b c d e f g i j k m n o p q r, l = [a, b, c, d, e, f, g, i, j, k, m, n, o, p, q, r] := by
  match l, h with
  | [a, b, c, d, e, f, g, i, j, k, m, n, o, p, q, r], _ => exact ⟨a, b, c, d, e, f, g, i, j, k, m, n, o, p, q, r, rfl⟩

theorem headerVariant_iff (f : Byte) : f &&& 0x0C = 0x08 ↔ f.toNat / 4 % 4 = 2 := by revert f; decide

section Header

variable (image : List Byte)

/-- Byte `i` of an image, as a number. -/
def imageByte (i : Nat) : Nat := (image.getD i 0).toNat

/-- The mapper's number in an image's header. -/
def imageMapper : Nat := imageByte image 7 / 16 * 16 + imageByte image 6 / 16

/-- A header parses when it is complete and none of R493's cases a to d rejects it; its fields are then these (R490). -/
theorem parseHeader_eq_ok_iff (h : Header) : parseHeader (image.take 16) = .ok h ↔
    16 ≤ image.length ∧ image.take 4 = [0x4E, 0x45, 0x53, 0x1A] ∧ imageByte image 7 / 4 % 4 ≠ 2 ∧
    imageByte image 4 ≠ 0 ∧ MapperId.ofNat? (imageMapper image) = some h.mapper ∧
    h.nPrg = imageByte image 4 ∧ h.nChr = imageByte image 5 ∧
    h.mirroring = (if imageByte image 6 % 2 = 1 then .vertical else .horizontal) ∧
    h.trainer = decide (imageByte image 6 / 4 % 2 = 1) := by
  by_cases hlen : 16 ≤ image.length
  case neg =>
    refine iff_of_false (fun hok => ?_) fun hok => hlen hok.1
    unfold parseHeader at hok
    split at hok
    · next htake =>
      have hmin : min 16 image.length = 16 := List.length_take.symm.trans (congrArg List.length htake)
      omega
    · cases hok
  case pos =>
    obtain ⟨m₀, m₁, m₂, m₃, nPrg, nChr, f₆, f₇, _, _, _, _, _, _, _, _, htake⟩ :=
      exists_of_length_eq_16 (List.length_take_of_le hlen)
    obtain ⟨rest, hrest⟩ : ∃ rest, image = image.take 16 ++ rest := ⟨_, (List.take_append_drop 16 image).symm⟩
    rw [htake] at hrest ⊢
    subst hrest
    have hzero : nPrg = 0 ↔ nPrg.toNat = 0 := by bv_omega
    have hvertical : bit f₆ 0 = true ↔ f₆.toNat % 2 = 1 := by
      rw [bit_toNat, pow_zero, Nat.div_one]
      exact decide_eq_true_iff
    have htrainer : bit f₆ 2 = decide (f₆.toNat / 4 % 2 = 1) := bit_toNat f₆ 2
    unfold parseHeader
    dsimp only
    rw [mapperNumber_eq, htrainer]
    simp only [headerVariant_iff, hzero, hvertical]
    by_cases hmagic : [m₀, m₁, m₂, m₃] = [0x4E, 0x45, 0x53, 0x1A]
    case neg =>
      rw [if_pos hmagic]
      exact iff_of_false nofun fun ⟨_, hok, _⟩ => hmagic hok
    by_cases hvariant : f₇.toNat / 4 % 4 = 2
    case pos =>
      rw [if_neg (not_not.2 hmagic), if_pos hvariant]
      exact iff_of_false nofun fun ⟨_, _, hok, _⟩ => hok hvariant
    rw [if_neg (not_not.2 hmagic), if_neg hvariant]
    cases hmapper : MapperId.ofNat? (f₇.toNat / 16 * 16 + f₆.toNat / 16) with
    | none => exact iff_of_false nofun fun ⟨_, _, _, _, hok, _⟩ => nomatch hmapper.symm.trans hok
    | some m =>
      by_cases hprg : nPrg.toNat = 0
      · exact iff_of_false (fun hok => by simp [hprg] at hok) fun ⟨_, _, _, hok, _⟩ => hok hprg
      · dsimp only
        rw [if_neg hprg]
        constructor
        · intro hok
          cases hok
          exact ⟨hlen, hmagic, hvariant, hprg, hmapper, rfl, rfl, rfl, rfl⟩
        · rintro ⟨-, -, -, -, hm, hp, hc, hmir, ht⟩
          cases h
          cases hmapper.symm.trans hm
          cases hp; cases hc; cases hmir; cases ht
          rfl

end Header

/-! ## The image (R491 to R493) -/

/-- The cartridge that a header and what follows it make (R491, R497, R549). -/
def Header.cartridge (h : Header) (image cartRamInit : List Byte) : Cartridge where
  prgRom := Store.ofListFrom 0 ((image.drop (16 + if h.trainer then 512 else 0)).take (h.nPrg * 16384))
  chr := Store.ofListFrom 0 (((image.drop (16 + if h.trainer then 512 else 0)).drop (h.nPrg * 16384)).take (h.nChr * 8192))
  chrIsRam := h.nChr == 0
  nPrg := h.nPrg
  nChr := h.nChr
  headerMirroring := h.mirroring
  prgRam := Store.ofListFrom 0 (cartRamInit.take 8192)
  mapper := .reset h.mapper

theorem parseImage_eq_ok_iff (image ram : List Byte) (c : Cartridge) : parseImage image ram = .ok c ↔
    ∃ h, parseHeader (image.take 16) = .ok h ∧
      16 + (if h.trainer then 512 else 0) + h.nPrg * 16384 + h.nChr * 8192 ≤ image.length ∧ c = h.cartridge image ram := by
  unfold parseImage
  cases parseHeader (image.take 16) with
  | error e => simp
  | ok h =>
    dsimp only
    by_cases hlen : 16 + (if h.trainer then 512 else 0) + h.nPrg * 16384 + h.nChr * 8192 ≤ image.length
    · rw [if_neg (Nat.not_lt.2 hlen)]
      constructor
      · rintro ⟨⟩
        exact ⟨h, rfl, hlen, rfl⟩
      · rintro ⟨_, ⟨⟩, -, rfl⟩
        rfl
    · rw [if_pos (Nat.lt_of_not_le hlen)]
      refine iff_of_false nofun ?_
      rintro ⟨_, ⟨⟩, hle, -⟩
      exact hlen hle

/-- The bytes of a part of the image. -/
theorem read_ofListFrom_part (image : List Byte) (start n i : Nat) :
    Store.read (Store.ofListFrom 0 ((image.drop start).take n)) i = if i < n then image.getD (start + i) 0 else 0 := by
  have hread := Store.read_ofListFrom 0 ((image.drop start).take n) i
  rw [Nat.zero_add] at hread
  rw [hread, List.getD_eq_getElem?_getD, List.getElem?_take, List.getD_eq_getElem?_getD]
  split
  · rw [List.getElem?_drop]
  · rfl

/-- Settles O60: the headers that parse by `parseHeader_eq_ok_iff`, and the arrays as parts of the image. -/
theorem cartridgeImages : Obligations.CartridgeImages := by
  unfold Obligations.CartridgeImages
  intro image ram s b mapper start chrStart loads
  have hstart (h : Header) (ht : h.trainer = decide (imageByte image 6 / 4 % 2 = 1)) :
      16 + (if h.trainer = true then 512 else 0) = start := by
    rw [ht]
    simp only [decide_eq_true_eq]
    rfl
  constructor
  · intro hloads
    unfold insertCartridge
    cases hparse : parseImage image ram with
    | error e => exact ⟨e, rfl⟩
    | ok c =>
      obtain ⟨h, hheader, hlen, -⟩ := (parseImage_eq_ok_iff image ram c).1 hparse
      obtain ⟨h16, hmagic, hvariant, hprg, hmapper, hnPrg, hnChr, -, ht⟩ := (parseHeader_eq_ok_iff image h).1 hheader
      rw [hstart h ht, hnPrg, hnChr] at hlen
      have hmapper4 : mapper ≤ 4 := (MapperId.ofNat?_eq_some_iff _).1 ⟨_, hmapper⟩
      have hend : chrStart + 8192 * b 5 ≤ image.length := by
        show start + 16384 * imageByte image 4 + 8192 * imageByte image 5 ≤ _
        omega
      exact absurd ⟨h16, hmagic, hvariant, hmapper4, hprg, hend⟩ hloads
  · rintro ⟨h16, hmagic, hvariant, hmapper4, hprg, hend⟩
    obtain ⟨m, hmapper⟩ := (MapperId.ofNat?_eq_some_iff mapper).2 hmapper4
    let h : Header := ⟨b 4, b 5, if b 6 % 2 = 1 then .vertical else .horizontal, decide (b 6 / 4 % 2 = 1), m⟩
    have hheader : parseHeader (image.take 16) = .ok h :=
      (parseHeader_eq_ok_iff image h).2 ⟨h16, hmagic, hvariant, hprg, hmapper, rfl, rfl, rfl, rfl⟩
    have hs := hstart h rfl
    have hlen : 16 + (if h.trainer = true then 512 else 0) + h.nPrg * 16384 + h.nChr * 8192 ≤ image.length := by
      rw [hs]
      have : start + 16384 * b 4 + 8192 * b 5 ≤ image.length := hend
      show start + b 4 * 16384 + b 5 * 8192 ≤ _
      omega
    have hparse := (parseImage_eq_ok_iff image ram _).2 ⟨h, hheader, hlen, rfl⟩
    refine ⟨h.cartridge image ram, by rw [insertCartridge, hparse], rfl, rfl, rfl, rfl, mapperReset_of_ofNat? hmapper,
      fun i hi => ?_, fun i => ?_, fun i hi => ?_⟩
    · unfold Header.cartridge
      dsimp only
      rw [hs, read_ofListFrom_part, if_pos]
      show i < b 4 * 16384
      omega
    · unfold Header.cartridge
      dsimp only
      rw [hs, List.drop_drop, read_ofListFrom_part, Nat.mul_comm, Nat.mul_comm h.nPrg]
    · exact (read_ofListFrom_part ram 0 8192 i).trans (by rw [if_pos hi, Nat.zero_add])

end Sys2Proof.Machine
end

section
/-! SUPPORT. The PPU bus, range by range (R360 to R363, R496, R500, R512, R533). -/

namespace Sys2Proof.Machine

section Ranges

variable (c : Option Cartridge) (p : Ppu) {a : PpuAddr} (d : Byte)

/-- From $2000 on no cartridge claims the PPU bus (R500). -/
theorem cartRead_none (h : 0x2000 ≤ a) : c.bind (·.ppuRead a) = none := by
  cases c with
  | none => rfl
  | some k => exact if_neg (BitVec.not_lt.2 h)

/-! ## The palette (R363) -/

theorem ppuRead_palette (h : 0x3F00 ≤ a) :
    ppuRead c p a = Store.read p.palette (palIndex a) &&& (if bit p.mask 0 then 0x30 else 0x3F) := by
  unfold ppuRead
  rw [cartRead_none c (by bv_omega)]
  dsimp only
  rw [if_neg (by bv_omega), if_neg (by bv_omega)]

theorem ppuWrite_palette (h : 0x3F00 ≤ a) :
    ppuWrite c p a d = (c, { p with palette := Store.write p.palette (palIndex a) d }) := by
  unfold ppuWrite
  rw [if_neg (by bv_omega), if_neg (by bv_omega)]

theorem ppuCell_palette (h : 0x3F00 ≤ a) : ppuCell c a = some (.palette (palIndex a)) := by
  unfold ppuCell
  rw [if_neg (by bv_omega), if_neg (by bv_omega)]

theorem palIndex_eq (a : PpuAddr) : palIndex a =
    if a.toNat % 32 ∈ [16, 20, 24, 28] then a.toNat % 32 - 16 else a.toNat % 32 := by
  have hlow : (a &&& 0x1F).toNat = a.toNat % 32 := and_low_toNat a _ 5 rfl
  unfold palIndex
  dsimp only
  rw [hlow]
  simp only [List.mem_cons, List.not_mem_nil, or_false]

/-- A read shows the low six bits, under greyscale bits 5 and 4 only. -/
theorem bit_shown (v : Byte) (grey : Bool) : ∀ i < 8,
    bit (v &&& (if grey then 0x30 else 0x3F)) i = (decide (i < 6) && (!grey || decide (4 ≤ i)) && bit v i) := by
  revert v grey; decide

/-! ## The nametables (R362) -/

theorem ppuRead_nametable (h : 0x2000 ≤ a) (h' : a < 0x3F00) :
    ppuRead c p a = Store.read p.nametable (ntOffset (mirroringOf c) a) := by
  unfold ppuRead
  rw [cartRead_none c h]
  dsimp only
  rw [if_neg (by bv_omega), if_pos (by bv_omega)]

theorem ppuWrite_nametable (h : 0x2000 ≤ a) (h' : a < 0x3F00) :
    ppuWrite c p a d = (c, { p with nametable := Store.write p.nametable (ntOffset (mirroringOf c) a) d }) := by
  unfold ppuWrite
  rw [if_neg (by bv_omega), if_pos (by bv_omega)]

theorem ppuCell_nametable (h : 0x2000 ≤ a) (h' : a < 0x3F00) :
    ppuCell c a = some (.nametable (ntOffset (mirroringOf c) a)) := by
  unfold ppuCell
  rw [if_neg (by bv_omega), if_pos (by bv_omega)]

theorem ntOffset_eq (m : Mirroring) (a : PpuAddr) : ntOffset m a = a.toNat % 1024 + match m with
    | .vertical => a.toNat / 1024 % 2 * 1024
    | .horizontal => a.toNat / 2048 % 2 * 1024
    | .singleLo => 0
    | .singleHi => 1024 := by
  have hlow : (a &&& 0x03FF).toNat = a.toNat % 1024 := and_low_toNat a _ 10 rfl
  have h10 : (bit a 10).toNat = a.toNat / 1024 % 2 := toNat_bit a 10
  have h11 : (bit a 11).toNat = a.toNat / 2048 % 2 := toNat_bit a 11
  unfold ntOffset ntIndex
  rw [hlow, Nat.add_comm]
  cases m <;> simp [h10, h11]

/-- Mapper 001's mirroring, by its control register's low bits (R512). -/
theorem mmc1Mirroring_eq (control : BitVec 5) (header : Mirroring) : mmc1Mirroring (field control 0 2) =
    [.singleLo, .singleHi, .vertical, .horizontal].getD (control.toNat % 4) header := by
  have hlow : (field control 0 2 : BitVec 2).toNat = control.toNat % 4 := field_zero_toNat control 2
  have hcases : ∀ b : BitVec 2, b = 0 ∨ b = 1 ∨ b = 2 ∨ b = 3 := by decide
  rw [← hlow]
  rcases hcases (field control 0 2) with h | h | h | h <;> rw [h] <;> rfl

/-! ## Pattern memory (R360, R500) -/

theorem ppuRead_patternRam (h : a < 0x2000) : ppuRead none p a = Store.read p.patternRam a.toNat := by
  unfold ppuRead
  exact if_pos (by bv_omega)

theorem ppuWrite_patternRam (h : a < 0x2000) :
    ppuWrite none p a d = (none, { p with patternRam := Store.write p.patternRam a.toNat d }) := by
  unfold ppuWrite
  rw [if_pos (by bv_omega)]

theorem ppuCell_patternRam (h : a < 0x2000) : ppuCell none a = some (.patternRam a.toNat) := by
  unfold ppuCell
  rw [if_pos (by bv_omega)]

theorem ppuRead_cartridge (k : Cartridge) (h : a < 0x2000) : ppuRead (some k) p a = Store.read k.chr (k.chrOffset a) := by
  have hread : (some k).bind (·.ppuRead a) = some (Store.read k.chr (k.chrOffset a)) := if_pos h
  unfold ppuRead
  rw [hread]

theorem ppuWrite_cartridge (k : Cartridge) (h : a < 0x2000) : ppuWrite (some k) p a d = (some (k.ppuWrite a d), p) := by
  unfold ppuWrite
  rw [if_pos (by bv_omega)]

theorem ppuCell_cartridge (k : Cartridge) (h : a < 0x2000) :
    ppuCell (some k) a = if k.chrIsRam = true then some (.chr (k.chrOffset a)) else none := by
  unfold ppuCell
  rw [if_pos (by bv_omega)]

/-- A write to the cartridge's CHR stores the byte only when it is RAM (R500). -/
theorem Cartridge.ppuWrite_eq (k : Cartridge) (a : PpuAddr) : ∃ m, k.ppuWrite a d = { k with chr := m } ∧
    ∀ i, Store.read m i = if k.chrIsRam = true ∧ i = k.chrOffset a then d else Store.read k.chr i := by
  unfold Cartridge.ppuWrite
  by_cases h : k.chrIsRam = true
  · exact ⟨_, if_pos h, fun i => by simp only [Store.read_write, h, true_and]⟩
  · exact ⟨k.chr, if_neg h, fun i => by simp only [h, Bool.false_eq_true, false_and, if_false]⟩

end Ranges

/-- Settles O47, range by range: the write, the cell it reaches and the read, with the indices as numbers. -/
theorem videoMemoryMirrors : Obligations.VideoMemoryMirrors := by
  unfold Obligations.VideoMemoryMirrors
  intro c p a b d q
  refine ⟨?palette, ?nametable, ?pattern⟩
  case palette =>
    intro ha hb fold
    have hfold (x : PpuAddr) : palIndex x = fold x.toNat := palIndex_eq x
    have hw := ppuWrite_palette c p d ha
    have hq : q = { p with palette := Store.write p.palette (palIndex a) d } := congrArg Prod.snd hw
    rw [hw, ppuCell_palette c ha, ppuRead_palette c q hb, hq, ← hfold, ← hfold]
    refine ⟨rfl, rfl, Store.read_write_same _ _ _, rfl, fun i hi => ?_⟩
    rw [bit_shown _ _ i hi, Store.read_write]
    simp only [eq_comm]
    split <;> rfl
  case nametable =>
    intro ha ha' hb hb' mode index
    have hmode : mirroringOf c = mode := by
      cases c with
      | none => rfl
      | some k =>
        obtain ⟨_, _, _, _, _, header, _, mapper⟩ := k
        cases mapper with
        | m001 r => exact congrArg (fun m => if r.ctrlLoaded = true then m else header) (mmc1Mirroring_eq r.control header)
        | _ => rfl
    have hindex (x : PpuAddr) : ntOffset (mirroringOf c) x = index x.toNat := by
      rw [hmode]
      exact ntOffset_eq mode x
    have hw := ppuWrite_nametable c p d ha ha'
    have hq : q = { p with nametable := Store.write p.nametable (ntOffset (mirroringOf c) a) d } := congrArg Prod.snd hw
    rw [hw, ppuCell_nametable c ha ha', ppuRead_nametable c p hb hb', ppuRead_nametable c q hb hb', hq, ← hindex,
      ← hindex]
    refine ⟨rfl, rfl, rfl, rfl, ?_⟩
    simp only [Store.read_write, eq_comm]
  case pattern =>
    intro ha hb
    constructor
    · rintro rfl
      have hw := ppuWrite_patternRam p d ha
      have hq : q = { p with patternRam := Store.write p.patternRam a.toNat d } := congrArg Prod.snd hw
      rw [hw, ppuCell_patternRam ha, ppuRead_patternRam p hb, ppuRead_patternRam q hb, hq]
      refine ⟨rfl, rfl, rfl, rfl, ?_⟩
      simp only [Store.read_write, BitVec.toNat_inj, eq_comm]
    · rintro k rfl
      have hw := ppuWrite_cartridge p d k ha
      obtain ⟨m, hm, hread⟩ := k.ppuWrite_eq d a
      exact ⟨congrArg Prod.snd hw, ppuRead_cartridge p k hb, ppuCell_cartridge k ha, m, by rw [hw, hm], hread⟩

end Sys2Proof.Machine
end

section
/-! SUPPORT. The PPU's registers on the CPU bus (R354 to R359, R364 to R366). -/

namespace Sys2Proof.Machine

variable (s : State) (d : Byte)

/-! ## One access -/

theorem busRead_ppuReg (reg : BitVec 3) : busRead (0x2000 + reg.setWidth 16) s =
    ((s.ppu.readReg s.cart reg).1, { s with ppu := (s.ppu.readReg s.cart reg).2 }) := by
  have hreg : ∀ reg : BitVec 3, (field (0x2000 + reg.setWidth 16 : Word) 0 3 : BitVec 3) = reg := by decide
  rw [busRead_ppu s (by bv_omega) (by bv_omega), hreg]

theorem busWrite_ppuReg (reg : BitVec 3) :
    busWrite (0x2000 + reg.setWidth 16) d s = s.applyPpu (s.ppu.writeReg s.cfg s.cart reg d) := by
  have hreg : ∀ reg : BitVec 3, (field (0x2000 + reg.setWidth 16 : Word) 0 3 : BitVec 3) = reg := by decide
  rw [busWrite_ppu s d (by bv_omega) (by bv_omega), hreg]

/-- An action of the PPU that asserts no NMI and leaves the cartridge. -/
theorem applyPpu_ppu_only (p : Ppu) : s.applyPpu ⟨p, s.cart, false⟩ = { s with ppu := p } := by
  unfold State.applyPpu
  dsimp only
  rw [Bool.or_false]

/-! ## PPUSTATUS and PPUCTRL (R355, R356, R358) -/

theorem readStatus_toNat (p : Ppu) :
    p.readStatus.1.toNat = p.status.toNat / 32 * 32 + p.readBuffer.toNat % 32 := by
  have hhigh : ∀ v : Byte, (v &&& 0xE0).toNat = 2 ^ 5 * (v.toNat / 32) := by decide
  have hlow : (p.readBuffer &&& 0x1F).toNat = p.readBuffer.toNat % 32 := and_low_toNat _ _ 5 rfl
  unfold Ppu.readStatus
  rw [BitVec.toNat_or, hhigh, hlow, ← Nat.two_pow_add_eq_or_of_lt (Nat.mod_lt _ (by decide)), Nat.mul_comm]

theorem bit_writeCtrl_t (t : BitVec 15) (i : Nat) : bit (putField t 10 (field d 0 2 : BitVec 2)) i =
    if i = 10 then bit d 0 else if i = 11 then bit d 1 else bit t i := by
  rw [bit_putField _ _ _ (by decide), bit_field]
  by_cases h10 : i = 10
  · subst h10; rfl
  · by_cases h11 : i = 11
    · subst h11; rfl
    · rw [if_neg (by omega), if_neg h10, if_neg h11]

/-! ## PPUSCROLL (R364) -/

theorem bit_coarseX (t : BitVec 15) (i : Nat) : bit (putField t 0 (field d 3 5 : BitVec 5)) i =
    if i < 5 then bit d (i + 3) else bit t i := by
  rw [bit_putField _ _ _ (by decide), bit_field]
  by_cases h : i < 5
  · rw [if_pos (by omega), if_pos h, Nat.sub_zero, decide_eq_true h, Bool.true_and, Nat.add_comm]
  · rw [if_neg (by omega), if_neg h]

theorem bit_scrollY (t : BitVec 15) {i : Nat} (hi : i < 15) :
    bit (putField (putField t 12 (field d 0 3 : BitVec 3)) 5 (field d 3 5 : BitVec 5)) i =
      if 5 ≤ i ∧ i < 10 then bit d (i - 2) else if 12 ≤ i then bit d (i - 12) else bit t i := by
  rw [bit_putField _ _ _ (by decide), bit_putField _ _ _ (by decide), bit_field, bit_field]
  by_cases h : 5 ≤ i ∧ i < 10
  · rw [if_pos h, if_pos h, decide_eq_true (by omega), Bool.true_and]
    congr 1
    omega
  · rw [if_neg h, if_neg h]
    by_cases h12 : 12 ≤ i
    · rw [if_pos (by omega), if_pos h12, decide_eq_true (by omega), Bool.true_and, Nat.zero_add]
    · rw [if_neg (by omega), if_neg h12]

/-- Settles O45: each register's access is `readReg` or `writeReg` at its number. -/
theorem ppuRegisters : Obligations.PpuRegisters := by
  unfold Obligations.PpuRegisters
  intro s d
  have hwrite (p : Ppu) := applyPpu_ppu_only s p
  refine ⟨?status, ?ctrl, ?mask, ?oamaddr, ?oamWrite, busRead_ppuReg s 4, ?scroll, ?others⟩
  case status =>
    have hr : busRead 0x2002 s = (s.ppu.readStatus.1, { s with ppu := s.ppu.readStatus.2 }) := busRead_ppuReg s 2
    have hw : busWrite 0x2002 d s = s.applyPpu ⟨s.ppu, s.cart, false⟩ := busWrite_ppuReg s d 2
    rw [hr, hw, hwrite]
    refine ⟨readStatus_toNat s.ppu, rfl, fun i _ => ?_, rfl⟩
    exact (bit_setBit _ _ _ _).trans (by rw [Bool.and_false])
  case ctrl =>
    have hw : busWrite 0x2000 d s = s.applyPpu ⟨(s.ppu.writeCtrl s.cfg d).1, s.cart, (s.ppu.writeCtrl s.cfg d).2⟩ :=
      busWrite_ppuReg s d 0
    rw [hw]
    exact ⟨rfl, fun i _ => bit_writeCtrl_t d s.ppu.t i⟩
  case mask => exact (busWrite_ppuReg s d 1).trans (hwrite _)
  case oamaddr => exact (busWrite_ppuReg s d 3).trans (hwrite _)
  case oamWrite =>
    have hw : busWrite 0x2004 d s = { s with ppu := s.ppu.writeOamData d } := (busWrite_ppuReg s d 4).trans (hwrite _)
    have hstored : StoredAt _ d s (busWrite 0x2004 d s) := storedAt_busWrite s d 0x2004
    rw [hw] at hstored ⊢
    exact ⟨rfl, hstored⟩
  case scroll =>
    have hw : busWrite 0x2005 d s = { s with ppu := s.ppu.writeScroll d } := (busWrite_ppuReg s d 5).trans (hwrite _)
    rw [hw, ← field_zero_eq_ofNat]
    constructor
    · intro h
      have hp : s.ppu.writeScroll d = { s.ppu with
          fineX := field d 0 3, t := putField s.ppu.t 0 (field d 3 5), w := true } := if_neg (by rw [h]; decide)
      rw [hp]
      exact ⟨rfl, fun i _ => bit_coarseX d s.ppu.t i⟩
    · intro h
      have hp : s.ppu.writeScroll d = { s.ppu with
          t := putField (putField s.ppu.t 12 (field d 0 3)) 5 (field d 3 5), w := false } := if_pos h
      rw [hp]
      exact ⟨rfl, fun i hi => bit_scrollY d s.ppu.t hi⟩
  case others =>
    simp only [List.forall_mem_cons, List.not_mem_nil, false_implies, implies_true, and_true]
    exact ⟨busRead_ppuReg s 0, busRead_ppuReg s 1, busRead_ppuReg s 3, busRead_ppuReg s 5, busRead_ppuReg s 6⟩

/-! ## PPUADDR and PPUDATA (R365, R366) -/

/-- The two writes of PPUADDR put together. -/
theorem toNat_writeAddr (t : BitVec 15) (hi lo : Byte) :
    (putField (setBit (putField t 8 (field hi 0 6 : BitVec 6)) 14 false) 0 lo).toNat = hi.toNat % 64 * 256 + lo.toNat := by
  rw [toNat_putField _ _ _ (by decide), toNat_setBit _ _ _ (by decide), toNat_putField _ _ _ (by decide), field_zero_toNat]
  have ht := t.isLt
  have hlo := lo.isLt
  norm_num
  omega

theorem stepV_toNat (p : Ppu) : p.stepV.v.toNat = (p.v.toNat + if bit p.ctrl 2 = true then 32 else 1) % 32768 := by
  unfold Ppu.stepV
  dsimp only
  split <;> exact BitVec.toNat_add _ _

theorem ppuAddrOf_v (v : BitVec 15) : v.setWidth 14 = BitVec.ofNat 14 v.toNat := by
  apply BitVec.eq_of_toNat_eq
  rw [BitVec.toNat_setWidth, BitVec.toNat_ofNat]

/-- A write to the PPU bus changes memories alone. -/
theorem ppuWrite_frame (c : Option Cartridge) (p : Ppu) (a : PpuAddr) : ∃ pattern names palette,
    (ppuWrite c p a d).2 = { p with patternRam := pattern, nametable := names, palette := palette } := by
  unfold ppuWrite
  split
  · split <;> exact ⟨_, _, _, rfl⟩
  · split <;> exact ⟨_, _, _, rfl⟩

/-- Settles O46: the writes of PPUADDR by the toggle, and PPUDATA at the address of `v`. -/
theorem ppuAddrAndData : Obligations.PpuAddrAndData := by
  unfold Obligations.PpuAddrAndData
  intro s hi lo d step a
  have ha : s.ppu.v.setWidth 14 = a := ppuAddrOf_v s.ppu.v
  refine ⟨?addr, ?read, ?write⟩
  case addr =>
    intro hw
    have haddr (t : State) (b : Byte) : busWrite 0x2006 b t = { t with ppu := t.ppu.writeAddr b } :=
      (busWrite_ppuReg t b 6).trans (applyPpu_ppu_only t _)
    have h1 : s.ppu.writeAddr hi = { s.ppu with
        t := setBit (putField s.ppu.t 8 (field hi 0 6)) 14 false, w := true } := if_neg (by rw [hw]; decide)
    have h2 (t : BitVec 15) : { s.ppu with t := t, w := true }.writeAddr lo =
        { s.ppu with t := putField t 0 lo, v := putField t 0 lo, w := false } := if_pos rfl
    rw [haddr, haddr]
    dsimp only
    rw [h1, h2]
    refine ⟨_, rfl, ?_, toNat_writeAddr s.ppu.t hi lo⟩
    rw [← hw]
  case read =>
    have hr : busRead 0x2007 s = ((s.ppu.readData s.cart).1, { s with ppu := (s.ppu.readData s.cart).2 }) :=
      busRead_ppuReg s 7
    rw [hr]
    unfold Ppu.readData
    rw [ha]
    exact ⟨rfl, _, rfl, rfl, stepV_toNat _⟩
  case write =>
    have hw : busWrite 0x2007 d s = s.applyPpu
        ⟨(ppuWrite s.cart s.ppu (s.ppu.v.setWidth 14) d).2.stepV, (ppuWrite s.cart s.ppu (s.ppu.v.setWidth 14) d).1,
          false⟩ := busWrite_ppuReg s d 7
    have hcell : storedCell 0x2007 s = ppuCell s.cart a := ha ▸ rfl
    refine ⟨hcell ▸ storedAt_busWrite s d 0x2007, ?_, ?_⟩
    · rw [hw, State.applyPpu_cpu, Bool.or_false]
    · obtain ⟨pattern, names, palette, hp⟩ := ppuWrite_frame d s.cart s.ppu (s.ppu.v.setWidth 14)
      rw [hw, State.applyPpu_ppu, stepV_toNat, hp]

end Sys2Proof.Machine
end

section
/-! SUPPORT. The background part of a PPU tick (R370, R374 to R380): what the 8-cycle sequence, the scroll steps and the
shifters leave, said once for every cycle. -/

namespace Sys2Proof.Machine

variable (c : Option Cartridge) (p : Ppu)

/-! ## The words of the tick -/

/-- The tick is in a fetch window (R370). -/
def Ppu.inWindow : Bool := decide ((2 ≤ p.cycle ∧ p.cycle ≤ 257) ∨ (321 ≤ p.cycle ∧ p.cycle ≤ 337))

/-- The tick is step `k` of the 8-cycle sequence (R374). -/
def Ppu.atSlot (k : Nat) : Bool := p.inWindow && decide ((p.cycle - 1) % 8 = k)

/-- A background shifter after the tick: shifted in a window, and loaded at the start of a sequence (R380). -/
def Ppu.stepped (x : BitVec 16) (b : Byte) : BitVec 16 :=
  let y := if (p.inWindow && bit p.mask 3) = true then x <<< 1 else x
  if p.atSlot 0 = true then putField y 0 b else y

/-- `v` after the tick, while rendering is on (R377, R378). -/
def Ppu.scrolled : Nat :=
  if p.rendering = false then p.v.toNat
  else if p.cycle = 256 then fineYStep (coarseXStep p.v.toNat)
  else if p.cycle = 257 then transferXStep p.v.toNat p.t.toNat
  else if p.atSlot 7 = true then coarseXStep p.v.toNat
  else if p.scanline = -1 ∧ 280 ≤ p.cycle ∧ p.cycle ≤ 304 then transferYStep p.v.toNat p.t.toNat
  else p.v.toNat

/-- The byte that `bgAttLo` or `bgAttHi` takes for its bit of the latch (R380). -/
def attribByte (b : Bool) : Byte := if b then 0xFF else 0x00

/-- The scroll register, the latches and the shifters after the fetches of a tick. -/
structure Ppu.BackgroundFields (c : Option Cartridge) (p q : Ppu) : Prop where
  v : q.v.toNat = p.scrolled
  tile : q.bgNextTileId =
    if p.atSlot 0 = true ∨ p.cycle = 338 ∨ p.cycle = 340 then ppuRead c p p.nametableAddr else p.bgNextTileId
  attrib : q.bgNextAttrib = if p.atSlot 2 = true then p.attributeFetch c else p.bgNextAttrib
  lsb : q.bgNextLsb = if p.atSlot 4 = true then ppuRead c p (p.patternAddr 0) else p.bgNextLsb
  msb : q.bgNextMsb = if p.atSlot 6 = true then ppuRead c p (p.patternAddr 8) else p.bgNextMsb
  patLo : q.bgPatLo = p.stepped p.bgPatLo p.bgNextLsb
  patHi : q.bgPatHi = p.stepped p.bgPatHi p.bgNextMsb
  attLo : q.bgAttLo = p.stepped p.bgAttLo (attribByte (bit p.bgNextAttrib 0))
  attHi : q.bgAttHi = p.stepped p.bgAttHi (attribByte (bit p.bgNextAttrib 1))

/-- What the background part of a tick makes of a PPU, and that nothing else changes. -/
structure Ppu.BackgroundStep (c : Option Cartridge) (p q : Ppu) : Prop where
  frame : q = { p with
    v := q.v, bgNextTileId := q.bgNextTileId, bgNextAttrib := q.bgNextAttrib, bgNextLsb := q.bgNextLsb
    bgNextMsb := q.bgNextMsb, bgPatLo := q.bgPatLo, bgPatHi := q.bgPatHi, bgAttLo := q.bgAttLo, bgAttHi := q.bgAttHi
    sprites := q.sprites }
  sprites : q.sprites = if p.inWindow = true then p.updateShifters.sprites else p.sprites
  fields : p.BackgroundFields c q

/-! ## The fetch window -/

/-- `BackgroundFetch(k)` as a change of named fields (R374). -/
theorem Ppu.backgroundFetch_eq (k : Nat) : ∃ v, p.backgroundFetch c k = { p with
    v := v
    bgNextTileId := if k = 0 then ppuRead c p p.nametableAddr else p.bgNextTileId
    bgNextAttrib := if k = 2 then p.attributeFetch c else p.bgNextAttrib
    bgNextLsb := if k = 4 then ppuRead c p (p.patternAddr 0) else p.bgNextLsb
    bgNextMsb := if k = 6 then ppuRead c p (p.patternAddr 8) else p.bgNextMsb
    bgPatLo := if k = 0 then putField p.bgPatLo 0 p.bgNextLsb else p.bgPatLo
    bgPatHi := if k = 0 then putField p.bgPatHi 0 p.bgNextMsb else p.bgPatHi
    bgAttLo := if k = 0 then putField p.bgAttLo 0 (attribByte (bit p.bgNextAttrib 0)) else p.bgAttLo
    bgAttHi := if k = 0 then putField p.bgAttHi 0 (attribByte (bit p.bgNextAttrib 1)) else p.bgAttHi } ∧
    v.toNat = if k = 7 ∧ p.rendering = true then coarseXStep p.v.toNat else p.v.toNat := by
  unfold Ppu.backgroundFetch
  split
  · exact ⟨_, rfl, rfl⟩
  · exact ⟨_, rfl, rfl⟩
  · exact ⟨_, rfl, rfl⟩
  · exact ⟨_, rfl, rfl⟩
  · obtain ⟨v, hp, hv⟩ := p.incrementX_eq
    refine ⟨v, hp, ?_⟩
    rw [hv]
    simp only [true_and]
  · next h0 h2 h4 h6 h7 =>
    refine ⟨p.v, ?_, ?_⟩
    · rw [if_neg h0, if_neg h2, if_neg h4, if_neg h6, if_neg h0, if_neg h0, if_neg h0, if_neg h0]
    · rw [if_neg fun h => h7 h.1]

/-- The part of the tick that a fetch window makes. -/
def Ppu.fetchWindow : Ppu :=
  if (2 ≤ p.cycle ∧ p.cycle ≤ 257) ∨ (321 ≤ p.cycle ∧ p.cycle ≤ 337) then
    p.updateShifters.backgroundFetch c ((p.cycle - 1) % 8)
  else p

theorem Ppu.fetchWindow_eq : ∃ v, p.fetchWindow c = { p with
    v := v
    bgNextTileId := if p.atSlot 0 = true then ppuRead c p p.nametableAddr else p.bgNextTileId
    bgNextAttrib := if p.atSlot 2 = true then p.attributeFetch c else p.bgNextAttrib
    bgNextLsb := if p.atSlot 4 = true then ppuRead c p (p.patternAddr 0) else p.bgNextLsb
    bgNextMsb := if p.atSlot 6 = true then ppuRead c p (p.patternAddr 8) else p.bgNextMsb
    bgPatLo := p.stepped p.bgPatLo p.bgNextLsb
    bgPatHi := p.stepped p.bgPatHi p.bgNextMsb
    bgAttLo := p.stepped p.bgAttLo (attribByte (bit p.bgNextAttrib 0))
    bgAttHi := p.stepped p.bgAttHi (attribByte (bit p.bgNextAttrib 1))
    sprites := if p.inWindow = true then p.updateShifters.sprites else p.sprites } ∧
    v.toNat = if p.atSlot 7 = true ∧ p.rendering = true then coarseXStep p.v.toNat else p.v.toNat := by
  have hwindow : ((2 ≤ p.cycle ∧ p.cycle ≤ 257) ∨ (321 ≤ p.cycle ∧ p.cycle ≤ 337)) ↔ p.inWindow = true :=
    decide_eq_true_iff.symm
  unfold Ppu.fetchWindow Ppu.stepped Ppu.atSlot
  simp only [hwindow]
  cases p.inWindow with
  | false => exact ⟨p.v, rfl, rfl⟩
  | true =>
    obtain ⟨sp, hu⟩ := p.updateShifters_eq
    obtain ⟨v, hf, hv⟩ := p.updateShifters.backgroundFetch_eq c ((p.cycle - 1) % 8)
    have hsp : p.updateShifters.sprites = sp := by rw [hu]
    refine ⟨v, ?_, ?_⟩
    · simp only [if_true, Bool.true_and, decide_eq_true_eq]
      rw [hf, hsp, hu]
      rfl
    · simp only [Bool.true_and, decide_eq_true_eq]
      rw [hv, hu]
      rfl

/-! ## The whole background part -/

theorem putField_twice (x : BitVec 16) (b : Byte) : putField (putField x 0 b) 0 b = putField x 0 b := by
  apply BitVec.eq_of_toNat_eq
  have := b.isLt
  rw [toNat_putField_low, toNat_putField_low]
  omega

/-- At cycle 257 the shifters hold the latches already (R370, R380). -/
theorem Ppu.fetchWindow_loaded (h : p.cycle = 257) : (p.fetchWindow c).loadShifters = p.fetchWindow c := by
  obtain ⟨v, hf, -⟩ := p.fetchWindow_eq c
  have hw : p.inWindow = true := by simp [Ppu.inWindow, h]
  have hs (k : Nat) : p.atSlot k = decide (0 = k) := by simp [Ppu.atSlot, hw, h]
  rw [hf]
  unfold Ppu.stepped
  simp only [hs, decide_eq_true_eq, if_true, OfNat.zero_ne_ofNat, if_false, Ppu.loadShifters]
  rw [← attribByte, ← attribByte, putField_twice, putField_twice, putField_twice, putField_twice]

theorem Ppu.fetchWindow_outside (h : p.inWindow = false) : p.fetchWindow c = p := by
  unfold Ppu.fetchWindow
  exact if_neg (of_decide_eq_false h)

/-- `backgroundTick` in the order of R370: the window, then the scroll steps and fetches at fixed cycles. -/
theorem Ppu.backgroundTick_eq : p.backgroundTick c =
    if p.cycle = 256 then (p.fetchWindow c).incrementY
    else if p.cycle = 257 then (p.fetchWindow c).loadShifters.transferX
    else if p.cycle = 338 ∨ p.cycle = 340 then { p with bgNextTileId := ppuRead c p p.nametableAddr }
    else if p.scanline = -1 ∧ 280 ≤ p.cycle ∧ p.cycle ≤ 304 then p.transferY
    else p.fetchWindow c := by
  have ht : p.backgroundTick c =
      (let q := p.fetchWindow c
      let q := if p.cycle = 256 then q.incrementY else q
      let q := if p.cycle = 257 then q.loadShifters.transferX else q
      let q := if p.cycle = 338 ∨ p.cycle = 340 then { q with bgNextTileId := ppuRead c q q.nametableAddr } else q
      if p.scanline = -1 ∧ 280 ≤ p.cycle ∧ p.cycle ≤ 304 then q.transferY else q) := rfl
  rw [ht]
  dsimp only
  by_cases h256 : p.cycle = 256
  · rw [if_pos h256, if_neg (by omega), if_neg (by omega), if_neg (by omega), if_pos h256]
  rw [if_neg h256, if_neg h256]
  by_cases h257 : p.cycle = 257
  · rw [if_pos h257, if_neg (by omega), if_neg (by omega), if_pos h257]
  rw [if_neg h257, if_neg h257]
  by_cases h338 : p.cycle = 338 ∨ p.cycle = 340
  · rw [if_pos h338, if_pos h338, if_neg (by omega), p.fetchWindow_outside c (decide_eq_false (by omega))]
  rw [if_neg h338, if_neg h338]
  by_cases h280 : p.scanline = -1 ∧ 280 ≤ p.cycle ∧ p.cycle ≤ 304
  · rw [if_pos h280, if_pos h280, p.fetchWindow_outside c (decide_eq_false (by omega))]
  · rw [if_neg h280, if_neg h280]

/-- After its window a tick changes `v` and the tile latch only (R370). -/
theorem Ppu.backgroundTick_window : ∃ v, p.backgroundTick c = { p.fetchWindow c with
    v := v
    bgNextTileId := if p.cycle = 338 ∨ p.cycle = 340 then ppuRead c p p.nametableAddr
      else (p.fetchWindow c).bgNextTileId } ∧ v.toNat = p.scrolled := by
  obtain ⟨v, hf, hv⟩ := p.fetchWindow_eq c
  have hr : (p.fetchWindow c).rendering = p.rendering := by rw [hf]; rfl
  have ht : (p.fetchWindow c).t = p.t := by rw [hf]
  have hqv : (p.fetchWindow c).v.toNat =
      if p.atSlot 7 = true ∧ p.rendering = true then coarseXStep p.v.toNat else p.v.toNat := by rw [hf]; exact hv
  rw [p.backgroundTick_eq c]
  unfold Ppu.scrolled
  by_cases h256 : p.cycle = 256
  · obtain ⟨v', hy, hy'⟩ := (p.fetchWindow c).incrementY_eq
    have hslot : p.atSlot 7 = true := by simp [Ppu.atSlot, Ppu.inWindow, h256]
    refine ⟨v', ?_, ?_⟩
    · rw [if_pos h256, if_neg (by omega), hy]
    · rw [hy', hr, hqv, hslot]
      cases p.rendering
      · rfl
      · rw [if_pos rfl, if_pos ⟨rfl, rfl⟩, if_neg (by decide), if_pos h256]
  rw [if_neg h256]
  by_cases h257 : p.cycle = 257
  · obtain ⟨v', hx, hx'⟩ := (p.fetchWindow c).transferX_eq
    have hslot : p.atSlot 7 = false := by simp [Ppu.atSlot, Ppu.inWindow, h257]
    refine ⟨v', ?_, ?_⟩
    · rw [if_pos h257, if_neg (by omega), p.fetchWindow_loaded c h257, hx]
    · rw [hx', hr, hqv, hslot, ht]
      cases p.rendering
      · rfl
      · rw [if_pos rfl, if_neg (by simp), if_neg (by decide), if_neg h256, if_pos h257]
  rw [if_neg h257]
  by_cases h338 : p.cycle = 338 ∨ p.cycle = 340
  · have hw : p.inWindow = false := decide_eq_false (by omega)
    have hslot : p.atSlot 7 = false := by rw [Ppu.atSlot, hw]; rfl
    refine ⟨p.v, ?_, ?_⟩
    · rw [if_pos h338, if_pos h338, p.fetchWindow_outside c hw]
    · rw [if_neg h256, if_neg h257, hslot, if_neg Bool.false_ne_true,
        if_neg (fun h => by omega : ¬ (p.scanline = -1 ∧ 280 ≤ p.cycle ∧ p.cycle ≤ 304)), ite_self]
  rw [if_neg h338, if_neg h338]
  by_cases h280 : p.scanline = -1 ∧ 280 ≤ p.cycle ∧ p.cycle ≤ 304
  · have hw : p.inWindow = false := decide_eq_false (by omega)
    have hslot : p.atSlot 7 = false := by rw [Ppu.atSlot, hw]; rfl
    obtain ⟨v', hy, hy'⟩ := p.transferY_eq
    refine ⟨v', ?_, ?_⟩
    · rw [if_pos h280, p.fetchWindow_outside c hw, hy]
    · rw [hy', hslot, if_neg h256, if_neg h257, if_neg Bool.false_ne_true, if_pos h280]
      cases p.rendering <;> rfl
  · refine ⟨(p.fetchWindow c).v, if_neg h280, ?_⟩
    rw [hqv, if_neg h256, if_neg h257, if_neg h280]
    cases p.rendering <;> cases p.atSlot 7 <;> rfl

/-- The background part of a tick, for every cycle (R370, R374 to R380). -/
theorem Ppu.backgroundTick_step : p.BackgroundStep c (p.backgroundTick c) := by
  obtain ⟨v, hf, -⟩ := p.fetchWindow_eq c
  obtain ⟨v', ht, hv'⟩ := p.backgroundTick_window c
  rw [hf] at ht
  rw [ht]
  refine ⟨rfl, rfl, hv', ?_, rfl, rfl, rfl, rfl, rfl, rfl, rfl⟩
  dsimp only
  by_cases h : p.cycle = 338 ∨ p.cycle = 340
  · rw [if_pos h, if_pos (Or.inr h)]
  · simp only [h, or_false, if_false]

end Sys2Proof.Machine
end

section
/-! SUPPORT. A whole PPU tick in its stages: the skip and the fetches, vertical blank, the pixel and the position; and what
each stage makes of the position, the status flags and the cartridge (R370, R371, R373, R379, R385). -/

namespace Sys2Proof.Machine

variable (c : Option Cartridge) (p : Ppu)

/-- The PPU of a tick after its fetches. -/
def Ppu.fetched (cfg : Config) : Ppu := (p.applyOddFrameSkip cfg).fetchTick c

/-- The start of vertical blank, at its tick (R379). -/
def Ppu.withVblank : Ppu := if p.atVblank = true then { p with status := setBit p.status 7 true } else p

/-- The cartridge after the scanline notification, at its tick (R385). -/
def Ppu.notifiedCart : Option Cartridge := if p.notifies = true then c.map Cartridge.scanline else c

theorem ppuTick_stages (cfg : Config) : ppuTick cfg c p =
    ⟨((p.fetched c cfg).withVblank.pixelTick ((p.fetched c cfg).notifiedCart c)).advance,
      (p.fetched c cfg).notifiedCart c, (p.fetched c cfg).atVblank && bit (p.fetched c cfg).withVblank.ctrl 7⟩ := rfl

/-! ## The skip -/

/-- The cycle of the tick after the odd-frame skip (R373). -/
theorem Ppu.applyOddFrameSkip_cycle (cfg : Config) : (p.applyOddFrameSkip cfg).cycle =
    if p.scanline = 0 ∧ p.cycle = 0 ∧ p.skips cfg = true then 1 else p.cycle := by
  unfold Ppu.applyOddFrameSkip
  split <;> rfl

theorem Ppu.fetchTick_start (h0 : p.scanline = 0) (h : p.cycle ≤ 1) : p.fetchTick c = p := by
  have hf : p.fetching = true := decide_eq_true (by omega)
  have hc : p.preRenderClear = p := if_neg (by omega)
  have hb : p.backgroundTick c = p := by
    rw [p.backgroundTick_eq c, if_neg (by omega), if_neg (by omega), if_neg (by omega), if_neg (by omega),
      p.fetchWindow_outside c (decide_eq_false (by omega))]
  have hsp : p.spriteTick c = p := by
    unfold Ppu.spriteTick
    dsimp only
    rw [if_neg (fun h => by omega : ¬ (p.cycle = 257 ∧ 0 ≤ p.scanline)), if_neg (by omega)]
  rw [Ppu.fetchTick, if_pos hf, hc, hb, hsp]

/-- The skip moves the position only: at the start of scanline 0 the fetches change nothing (R370, R373). -/
theorem Ppu.fetched_eq (cfg : Config) :
    p.fetched c cfg = { p.fetchTick c with cycle := (p.applyOddFrameSkip cfg).cycle } := by
  unfold Ppu.fetched Ppu.applyOddFrameSkip
  split
  · next h =>
    obtain ⟨hs, hc, -⟩ := h
    rw [p.fetchTick_start c hs (by omega)]
    exact Ppu.fetchTick_start c { p with cycle := 1 } hs (Nat.le_refl 1)
  · rw [← (p.fetchTick_stage c).place.cycle]

variable (cfg : Config)

theorem Ppu.fetched_cycle : (p.fetched c cfg).cycle =
    if p.scanline = 0 ∧ p.cycle = 0 ∧ p.skips cfg = true then 1 else p.cycle := by
  rw [p.fetched_eq c cfg]
  exact p.applyOddFrameSkip_cycle cfg

theorem Ppu.fetched_scanline : (p.fetched c cfg).scanline = p.scanline := by
  rw [p.fetched_eq c cfg]
  exact (p.fetchTick_stage c).place.scanline

theorem Ppu.fetched_framebuffer : (p.fetched c cfg).framebuffer = p.framebuffer := by
  rw [p.fetched_eq c cfg]
  exact (p.fetchTick_stage c).place.framebuffer

theorem Ppu.fetched_kept : p.Kept (p.fetched c cfg) := by
  rw [p.fetched_eq c cfg]
  obtain ⟨h1, h2, h3, h4, h5, h6, h7, h8, h9, h10, h11, h12, h13⟩ := (p.fetchTick_stage c).kept
  exact ⟨h1, h2, h3, h4, h5, h6, h7, h8, h9, h10, h11, h12, h13⟩

theorem Ppu.fetched_atVblank : (p.fetched c cfg).atVblank = p.atVblank := by
  unfold Ppu.atVblank
  rw [p.fetched_scanline c cfg, p.fetched_cycle c cfg]
  refine decide_eq_decide.mpr (and_congr_right fun h => ?_)
  rw [if_neg (by omega)]

theorem Ppu.fetched_notifies : (p.fetched c cfg).notifies = p.notifies := by
  unfold Ppu.notifies Ppu.fetching Ppu.rendering
  rw [p.fetched_scanline c cfg, (p.fetched_kept c cfg).mask, p.fetched_cycle c cfg]
  split
  · next h =>
    obtain ⟨-, hc, -⟩ := h
    rw [hc]
    rfl
  · rfl

/-! ## What the last stages leave -/

/-- After the fetches a tick changes only the pixel, the flags and the position (R370). -/
theorem ppuTick_fetchTick : ∃ r0 st fb sl cy fc od, (ppuTick cfg c p).ppu = { p.fetchTick c with
    spr0Rendering := r0, status := st, framebuffer := fb
    scanline := sl, cycle := cy, frameComplete := fc, oddFrame := od } := by
  obtain ⟨r0, st, fb, sl, cy, fc, od, h⟩ := ppuTick_eq c p cfg
  have hf : (p.applyOddFrameSkip cfg).fetchTick c = _ := p.fetched_eq c cfg
  rw [hf] at h
  exact ⟨r0, st, fb, sl, cy, fc, od, h⟩

theorem Ppu.withVblank_eq : p.withVblank =
    { p with status := if p.atVblank = true then setBit p.status 7 true else p.status } := by
  unfold Ppu.withVblank
  split <;> rfl

theorem Ppu.advance_status : p.advance.status = p.status := by
  obtain ⟨sl, cy, fc, od, h⟩ := p.advance_eq
  rw [h]

/-- The tick draws a pixel (R370). -/
def Ppu.Draws : Prop := 0 ≤ p.scanline ∧ p.scanline ≤ 239 ∧ 1 ≤ p.cycle ∧ p.cycle ≤ 256

/-- The pixel can set the sprite-0 hit flag, and no other (R393). -/
theorem Ppu.bit_pixelTick_status (i : Nat) (hi : i ≠ 6 ∨ ¬ p.Draws) : bit (p.pixelTick c).status i = bit p.status i := by
  unfold Ppu.pixelTick
  split
  · next hd =>
    unfold Ppu.composePixel
    dsimp only
    split
    · rw [bit_setBit, if_neg (hi.resolve_right (not_not.2 hd))]
    · rfl
  · rfl

/-- The status flags after a tick, but for the sprite-0 hit of a pixel. -/
theorem bit_ppuTick_status (i : Nat) (hi : i ≠ 6 ∨ ¬ (p.fetched c cfg).Draws) : bit (ppuTick cfg c p).ppu.status i =
    if i = 7 ∧ p.atVblank = true then true else bit (p.fetchTick c).status i := by
  have hd : i ≠ 6 ∨ ¬ (p.fetched c cfg).withVblank.Draws := by
    rw [Ppu.withVblank_eq]
    exact hi
  rw [ppuTick_stages, Ppu.advance_status, Ppu.bit_pixelTick_status _ _ i hd, Ppu.withVblank_eq, p.fetched_atVblank c cfg,
    p.fetched_eq c cfg]
  dsimp only
  by_cases hv : p.atVblank = true
  · rw [if_pos hv, bit_setBit]
    by_cases h7 : i = 7
    · rw [if_pos h7, if_pos ⟨h7, hv⟩, h7]
      rfl
    · rw [if_neg h7, if_neg fun h => h7 h.1]
  · rw [if_neg hv, if_neg fun h => hv h.2]

/-! ## The status flags and the fetches -/

theorem Ppu.spriteTick_status : (p.spriteTick c).status =
    if p.cycle = 257 ∧ 0 ≤ p.scanline ∧ p.spritesFound.length > 8 then setBit p.status 5 true else p.status := by
  have hfetch (q : Ppu) : (if q.cycle = 340 then q.fetchSprites c else q).status = q.status := by split <;> rfl
  rw [Ppu.spriteTick, hfetch]
  by_cases h : p.cycle = 257 ∧ 0 ≤ p.scanline
  · simp only [h, and_self, true_and, if_true, Ppu.evaluateSprites]
  · rw [if_neg h, if_neg fun h' => h ⟨h'.1, h'.2.1⟩]

theorem Ppu.backgroundTick_status : (p.backgroundTick c).status = p.status :=
  (congrArg Ppu.status (p.backgroundTick_step c).frame :)

theorem Ppu.spritesFound_congr {q : Ppu} (hs : q.scanline = p.scanline) (ho : q.oam = p.oam) (hc : q.ctrl = p.ctrl) :
    q.spritesFound = p.spritesFound := by
  unfold Ppu.spritesFound Ppu.spriteInRange Ppu.spriteHeight
  rw [hs, ho, hc]

/-- The flags after the fetches: cleared at the start of the pre-render line, overflow set by evaluation (R379, R381). -/
theorem Ppu.fetchTick_status : (p.fetchTick c).status =
    if p.scanline = -1 ∧ p.cycle = 1 then p.status &&& 0x1F
    else if p.fetching = true ∧ p.cycle = 257 ∧ 0 ≤ p.scanline ∧ p.spritesFound.length > 8 then setBit p.status 5 true
    else p.status := by
  have hk := (p.preRenderClear_stage.trans (Ppu.backgroundTick_stage c _))
  have hpre : p.preRenderClear.status = if p.scanline = -1 ∧ p.cycle = 1 then p.status &&& 0x1F else p.status := by
    unfold Ppu.preRenderClear
    split <;> rfl
  unfold Ppu.fetchTick
  by_cases hf : p.fetching = true
  · rw [if_pos hf, Ppu.spriteTick_status, Ppu.backgroundTick_status, hk.place.cycle, hk.place.scanline,
      Ppu.spritesFound_congr p hk.place.scanline hk.kept.oam hk.kept.ctrl, hpre]
    by_cases h1 : p.scanline = -1 ∧ p.cycle = 1
    · rw [if_pos h1, if_neg (by omega), if_pos h1]
    · rw [if_neg h1, if_neg h1]
      simp only [hf, true_and]
  · have hline : ¬ (-1 ≤ p.scanline ∧ p.scanline ≤ 239) := fun h => hf (decide_eq_true h)
    rw [if_neg hf, if_neg (by omega), if_neg fun h => hf h.1]

/-! ## The position -/

/-- The position after a tick, from the one after the skip (R371). -/
theorem ppuTick_position :
    let n := if p.scanline = 0 ∧ p.cycle = 0 ∧ p.skips cfg = true then 1 else p.cycle
    let q := (ppuTick cfg c p).ppu
    q.cycle = (if n = 340 then 0 else n + 1) ∧
    q.scanline = (if n = 340 then if p.scanline = 260 then -1 else p.scanline + 1 else p.scanline) ∧
    q.frameComplete = (if n = 340 ∧ p.scanline = 260 then true else p.frameComplete) ∧
    q.oddFrame = (if n = 340 ∧ p.scanline = 260 then !p.oddFrame else p.oddFrame) := by
  intro n q
  obtain ⟨r0, st, fb, h, -⟩ := Ppu.pixelTick_eq ((p.fetched c cfg).notifiedCart c) (p.fetched c cfg).withVblank
  have hq : q = ((p.fetched c cfg).withVblank.pixelTick ((p.fetched c cfg).notifiedCart c)).advance := rfl
  have hn : (p.fetched c cfg).cycle = n := p.fetched_cycle c cfg
  have hs := p.fetched_scanline c cfg
  have ho := (p.fetched_kept c cfg).oddFrame
  have hfc := (p.fetched_kept c cfg).frameComplete
  rw [hq, h, Ppu.withVblank_eq, Ppu.advance]
  dsimp only
  rw [hn, hs, ho]
  by_cases h340 : n = 340
  · rw [if_pos (by omega)]
    by_cases h260 : p.scanline = 260
    · rw [if_pos (by omega)]
      simp only [h340, h260, and_self, if_true]
    · rw [if_neg (by omega)]
      simp only [h340, h260, and_false, if_true, if_false, hfc, and_self]
  · rw [if_neg (by omega)]
    simp only [h340, false_and, if_false, hfc, and_self]

end Sys2Proof.Machine

end

section
/-! Vertical blank and the position of the PPU, settled from the stages of a tick. -/

namespace Sys2Proof.Machine

variable (c : Option Cartridge) (p : Ppu) (cfg : Config)

/-- NMI is latched at the start of vertical blank, by PPUCTRL (R291). -/
theorem ppuTick_nmi : (ppuTick cfg c p).nmi = (p.atVblank && bit p.ctrl 7) := by
  rw [ppuTick_stages, Ppu.withVblank_eq, p.fetched_atVblank c cfg, (p.fetched_kept c cfg).ctrl]

/-- Settles O48, from the status flags of a tick: the fetches touch bits 7 to 5 at their two ticks only. -/
theorem vblankAndNmi : Obligations.VblankAndNmi := by
  unfold Obligations.VblankAndNmi
  intro s t
  have hbit (i : Nat) (hi : i ≠ 6 ∨ ¬ (s.ppu.fetched s.cart s.cfg).Draws) : bit t.ppu.status i = _ :=
    bit_ppuTick_status s.cart s.ppu s.cfg i hi
  have hnmi : t.cpu = { s.cpu with nmiPending := s.cpu.nmiPending || (s.ppu.atVblank && bit s.ppu.ctrl 7) } :=
    congrArg (fun b => { s.cpu with nmiPending := s.cpu.nmiPending || b }) (ppuTick_nmi s.cart s.ppu s.cfg)
  refine ⟨fun hs hc => ?_, fun hs hc => ?_, fun hv => ?_, fun hv => ?_⟩
  · have hv : s.ppu.atVblank = true := decide_eq_true ⟨hs, hc⟩
    rw [hbit 7 (.inl (by decide)), if_pos ⟨rfl, hv⟩, hnmi, hv, Bool.true_and]
    exact ⟨rfl, rfl⟩
  · have hclear : (s.ppu.fetchTick s.cart).status = s.ppu.status &&& 0x1F := by
      rw [s.ppu.fetchTick_status, if_pos ⟨hs, hc⟩]
    have hdraws : ¬ (s.ppu.fetched s.cart s.cfg).Draws := by
      rw [Ppu.Draws, s.ppu.fetched_scanline]
      omega
    have hbits (i : Nat) (hi : i ∈ [7, 6, 5]) : bit t.ppu.status i = false := by
      have h1F : bit (0x1F : Byte) i = false := by
        revert i
        decide
      have hno : s.ppu.atVblank = false := decide_eq_false (by omega)
      rw [hbit i (.inr hdraws), hclear, hno, if_neg (by simp)]
      rw [bit] at h1F ⊢
      rw [BitVec.getLsbD_and, h1F, Bool.and_false]
    exact ⟨hbits 7 (by decide), hbits 6 (by decide), hbits 5 (by decide)⟩
  · rw [hnmi, show s.ppu.atVblank = false from decide_eq_false hv, Bool.false_and, Bool.or_false]
  · have hno : s.ppu.atVblank = false := decide_eq_false (by omega)
    rw [hbit 7 (.inl (by decide)), hno, if_neg (by decide), s.ppu.fetchTick_status, if_neg (by omega)]
    split
    · rw [bit_setBit, if_neg (by decide)]
    · rfl

/-- The condition of the skip, by the option's three values (R373). -/
theorem Ppu.skips_iff : p.skips cfg = true ↔ p.oddFrame = true ∧ (cfg.oddFrameSkip = .oddFramesAlways ∨
    (cfg.oddFrameSkip = .oddFramesWhenRendering ∧ (bit p.mask 3 = true ∨ bit p.mask 4 = true))) := by
  unfold Ppu.skips Ppu.rendering
  cases cfg.oddFrameSkip <;> simp

/-- Settles O49, from the position after the skip. -/
theorem ppuPosition : Obligations.PpuPosition := by
  unfold Obligations.PpuPosition
  intro s _ t skip
  obtain ⟨hc, hs, hf, ho⟩ := ppuTick_position s.cart s.ppu s.cfg
  have hskip : skip ↔ s.ppu.scanline = 0 ∧ s.ppu.cycle = 0 ∧ s.ppu.skips s.cfg = true := by
    rw [s.ppu.skips_iff s.cfg]
  simp only [← hskip] at hc hs hf ho
  change t.ppu.cycle = _ at hc
  change t.ppu.scanline = _ at hs
  change t.ppu.frameComplete = _ at hf
  change t.ppu.oddFrame = _ at ho
  by_cases h : skip
  · obtain ⟨hline, hzero, -⟩ := id h
    rw [if_pos h, if_neg (by decide)] at hc hs
    rw [if_pos h, if_neg (by omega)] at hf ho
    refine ⟨fun _ => ⟨hc, hs.trans hline⟩, fun hno => absurd h hno, fun h340 => by omega, ?_⟩
    rw [if_neg (by omega)]
    exact ⟨hf, ho⟩
  · rw [if_neg h] at hc hs hf ho
    refine ⟨fun hsk => absurd hsk h, fun _ hlt => ?_, fun h340 => ?_, ?_⟩
    · rw [if_neg (by omega)] at hc hs
      exact ⟨hc, hs⟩
    · rw [if_pos h340] at hc hs
      exact ⟨hc, hs⟩
    · rw [hf, ho]
      by_cases hwrap : s.ppu.cycle = 340 ∧ s.ppu.scanline = 260
      · rw [if_pos hwrap, if_pos hwrap, if_pos hwrap]
        exact ⟨rfl, rfl⟩
      · rw [if_neg hwrap, if_neg hwrap, if_neg hwrap]
        exact ⟨rfl, rfl⟩

end Sys2Proof.Machine

end

section
/-! SUPPORT and the settlement of mapper 004: its counter and the notification, its registers and its banks (R385, R531 to
R534, R541). -/

namespace Sys2Proof.Machine

/-! ## The scanline counter -/

theorem Mmc3.scanline_eq (r : Mmc3) :
    let counter : Byte := if r.irqCounter = 0 ∨ r.irqReload = true then r.irqLatch else r.irqCounter - 1
    r.scanline = { r with
      irqCounter := counter, irqReload := false, irq := r.irq || (r.irqEnable && counter == 0) } := by
  intro counter
  have hcount : (if r.irqCounter = 0 ∨ r.irqReload = true then { r with irqCounter := r.irqLatch, irqReload := false }
      else { r with irqCounter := r.irqCounter - 1 }) = { r with irqCounter := counter, irqReload := false } := by
    unfold counter
    by_cases h : r.irqCounter = 0 ∨ r.irqReload = true
    · rw [if_pos h, if_pos h]
    · rw [if_neg h, if_neg h, ← Bool.eq_false_iff.2 fun hr => h (.inr hr)]
  rw [Mmc3.scanline, hcount]
  generalize counter = k
  dsimp only
  by_cases h0 : k = 0
  · cases he : r.irqEnable <;> simp [h0]
  · rw [if_neg fun h => h0 h.1, beq_false_of_ne h0, Bool.and_false, Bool.or_false]

/-- When the PPU notifies the cartridge, and what it is then (R385). -/
theorem ppuTick_cart_eq (cfg : Config) (c : Option Cartridge) (p : Ppu) :
    (ppuTick cfg c p).cart = if p.notifies = true then c.map Cartridge.scanline else c := by
  rw [ppuTick_stages, Ppu.notifiedCart, p.fetched_notifies c cfg]

theorem Ppu.notifies_iff (p : Ppu) : p.notifies = true ↔ -1 ≤ p.scanline ∧ p.scanline ≤ 239 ∧ p.cycle = 260 ∧
    (bit p.mask 3 = true ∨ bit p.mask 4 = true) := by
  unfold Ppu.notifies Ppu.fetching Ppu.rendering
  simp only [Bool.and_eq_true, decide_eq_true_eq, beq_iff_eq, Bool.or_eq_true, and_assoc]

/-! ## The registers -/

/-- The 8 KB range of an address in $8000 to $FFFF. -/
theorem field_13_cases {a : Word} (h : 0x8000 ≤ a) :
    ((field a 13 2 : BitVec 2) = 0 ↔ a < 0xA000) ∧ ((field a 13 2 : BitVec 2) = 1 ↔ 0xA000 ≤ a ∧ a < 0xC000) ∧
      ((field a 13 2 : BitVec 2) = 2 ↔ 0xC000 ≤ a ∧ a < 0xE000) := by
  have hrange := field_13_toNat h
  refine ⟨?_, ?_, ?_⟩ <;> bv_omega

/-- The register that a write reaches, by its range and its parity (R531, R533). -/
theorem Mmc3.write_eq (r : Mmc3) {a : Word} (h : 0x8000 ≤ a) (d : Byte) : r.write a d =
    if a < 0xA000 then
      if a.toNat % 2 = 0 then { r with bankSelect := d }
      else { r with banks := r.banks.set (r.bankSelect.toNat % 8) d }
    else if a < 0xC000 then
      if a.toNat % 2 = 0 then { r with mirWritten := true, mirroring := if bit d 0 = true then .horizontal else .vertical }
      else r
    else if a < 0xE000 then
      if a.toNat % 2 = 0 then { r with irqLatch := d } else { r with irqCounter := 0, irqReload := true }
    else if a.toNat % 2 = 0 then { r with irqEnable := false, irq := false }
    else { r with irqEnable := true } := by
  obtain ⟨h0, h1, h2⟩ := field_13_cases h
  have hparity (x y : Mmc3) : (if bit a 0 = true then x else y) = if a.toNat % 2 = 0 then y else x := by
    have hodd : bit a 0 = true ↔ ¬ a.toNat % 2 = 0 := by
      rw [bit_toNat]
      simp only [decide_eq_true_eq]
      omega
    simp only [hodd, ite_not]
  have hindex : (field r.bankSelect 0 3 : BitVec 3).toNat = r.bankSelect.toNat % 8 := field_zero_toNat r.bankSelect 3
  unfold Mmc3.write
  dsimp only
  rw [hparity, hparity, hparity, hparity, hindex]
  by_cases hA : a < 0xA000
  · rw [if_pos (h0.2 hA), if_pos hA]
  rw [if_neg (mt h0.1 hA), if_neg hA]
  by_cases hC : a < 0xC000
  · rw [if_pos (h1.2 ⟨BitVec.not_lt.1 hA, hC⟩), if_pos hC]
  rw [if_neg fun h => hC (h1.1 h).2, if_neg hC]
  by_cases hE : a < 0xE000
  · rw [if_pos (h2.2 ⟨BitVec.not_lt.1 hC, hE⟩), if_pos hE]
  · rw [if_neg fun h => hE (h2.1 h).2, if_neg hE]

/-! ## The banks -/

theorem Mmc3.even_toNat : ∀ b : Byte, (b &&& 0xFE).toNat = b.toNat / 2 * 2 := by decide
theorem Mmc3.odd_toNat : ∀ b : Byte, (b ||| 1).toNat = b.toNat / 2 * 2 + 1 := by decide

/-- The 8 KB bank of an address, by its range (R532). -/
theorem mmc3PrgBank_eq (r : Mmc3) (nPrg : Nat) {b : Word} (h : 0x8000 ≤ b) :
    let reg (i : Nat) : Nat := (r.banks.getD i 0).toNat
    let last := 2 * nPrg - 1
    let mode := bit r.bankSelect 6
    mmc3PrgBank r nPrg (field b 13 2) =
      if b < 0xA000 then (if mode = true then last - 1 else reg 6)
      else if b < 0xC000 then reg 7
      else if b < 0xE000 then (if mode = true then reg 6 else last - 1)
      else last := by
  intro reg last mode
  obtain ⟨h0, h1, h2⟩ := field_13_cases h
  unfold mmc3PrgBank
  by_cases hA : b < 0xA000
  · rw [if_pos hA]
    exact if_pos (h0.2 hA)
  rw [if_neg hA]
  refine (if_neg (mt h0.1 hA)).trans ?_
  by_cases hC : b < 0xC000
  · rw [if_pos hC]
    exact if_pos (h1.2 ⟨BitVec.not_lt.1 hA, hC⟩)
  rw [if_neg hC]
  refine (if_neg fun h => hC (h1.1 h).2).trans ?_
  by_cases hE : b < 0xE000
  · rw [if_pos hE]
    exact if_pos (h2.2 ⟨BitVec.not_lt.1 hC, hE⟩)
  · rw [if_neg hE]
    exact if_neg fun h => hE (h2.1 h).2

/-- The 1 KB bank of a slot, as the list of the eight (R534). -/
theorem mmc3ChrBank_eq (r : Mmc3) (slot : BitVec 3) :
    let reg (i : Nat) : Nat := (r.banks.getD i 0).toNat
    mmc3ChrBank r slot =
      [reg 0 / 2 * 2, reg 0 / 2 * 2 + 1, reg 1 / 2 * 2, reg 1 / 2 * 2 + 1, reg 2, reg 3, reg 4, reg 5].getD
        ((slot.toNat + if bit r.bankSelect 7 = true then 4 else 0) % 8) 0 := by
  intro reg
  have hinvert : ∀ x : BitVec 3, (x ^^^ 4).toNat = (x.toNat + 4) % 8 := by decide
  have hs : ∃ x : BitVec 3, (if bit r.bankSelect 7 = true then slot ^^^ 4 else slot) = x ∧
      x.toNat = (slot.toNat + if bit r.bankSelect 7 = true then 4 else 0) % 8 := by
    cases bit r.bankSelect 7
    · exact ⟨_, rfl, (Nat.mod_eq_of_lt slot.isLt).symm⟩
    · exact ⟨_, rfl, hinvert slot⟩
  obtain ⟨x, hx, hn⟩ := hs
  rw [← hn, mmc3ChrBank, hx, Mmc3.even_toNat, Mmc3.even_toNat, Mmc3.odd_toNat, Mmc3.odd_toNat]
  fin_cases x <;> rfl

/-- Settles O59, from the counter, the registers by range and parity, and the bank of each slot. -/
theorem mmc3BanksAndCounter : Obligations.Mmc3BanksAndCounter := by
  unfold Obligations.Mmc3BanksAndCounter
  intro s c r hc hm notified counter
  have hcart : (ppuClock s).cart = if s.ppu.notifies = true then s.cart.map Cartridge.scanline else s.cart :=
    ppuTick_cart_eq s.cfg s.cart s.ppu
  rw [hc] at hcart
  refine ⟨fun h => ?_, fun h => ?_, fun a d ha => ?_, ?_⟩
  · rw [hcart, if_pos (s.ppu.notifies_iff.2 h)]
    simp only [Option.map_some, Cartridge.scanline, hm, r.scanline_eq]
    rfl
  · rw [hcart, if_neg fun hn => h (s.ppu.notifies_iff.1 hn)]
  · rw [busWrite_mapper_cart hc ha, hm, Mapper.write, r.write_eq ha]
  · intro b p _ hb hp _ _ reg last mode prgBank slot chrBank
    have hprgLow : (b &&& 0x1FFF).toNat = b.toNat % 8192 := and_low_toNat b _ 13 rfl
    have hchrLow : (p &&& 0x03FF).toNat = p.toNat % 1024 := and_low_toNat p _ 10 rfl
    rw [busRead_prgRom hc hb, ppuRead_chr hc _ hp, Cartridge.prgOffset, Cartridge.chrOffset, hm]
    dsimp only
    have hslot : mmc3ChrBank r (field p 10 3) = chrBank := by
      have hs : (p.toNat / 2 ^ 10 % 2 ^ 3 + if bit r.bankSelect 7 = true then 4 else 0) % 8 = slot := Nat.mod_add_mod _ _ _
      rw [mmc3ChrBank_eq, toNat_field, hs]
    rw [hprgLow, hchrLow, mmc3PrgBank_eq r c.nPrg hb, hslot]
    exact ⟨rfl, rfl⟩

end Sys2Proof.Machine

end

section
/-! SUPPORT and the settlement of sprite evaluation and fetch: the units that the sprites in range fill, and the address
and bit order of a unit's pattern bytes (R381 to R384). -/

namespace Sys2Proof.Machine

variable (c : Option Cartridge) (p : Ppu) (cfg : Config)

/-! ## Lists -/

/-- An entry kept by a filter of `range m` stands after those kept before it. -/
theorem getElem?_filter_range (P : Nat → Bool) {m n : Nat} (h : n < m) (hn : P n = true) :
    ((List.range m).filter P)[(List.range n).countP P]? = some n := by
  induction m with
  | zero => exact absurd h (Nat.not_lt_zero n)
  | succ m ih =>
    rw [List.range_succ, List.filter_append]
    obtain hlt | heq := Nat.lt_succ_iff_lt_or_eq.1 h
    · have hget := ih hlt
      rw [List.getElem?_append_left (List.getElem?_eq_some_iff.1 hget).1]
      exact hget
    · rw [heq] at hn ⊢
      rw [List.countP_eq_length_filter, List.getElem?_append_right (Nat.le_refl _), Nat.sub_self, List.filter_cons_of_pos hn]
      rfl

theorem getElem?_mapFirst (f : SpriteUnit → SpriteUnit) (n i : Nat) (us : List SpriteUnit) :
    (mapFirst f n us)[i]? = if i < n then us[i]?.map f else us[i]? := by
  induction us generalizing n i with
  | nil => cases n <;> simp [mapFirst]
  | cons u us ih =>
    cases n with
    | zero => rfl
    | succ n =>
      cases i with
      | zero => rfl
      | succ i =>
        simp only [mapFirst, List.getElem?_cons_succ, Nat.succ_lt_succ_iff]
        exact ih n i

/-! ## Evaluation -/

/-- After the tick's fetches the sprite list and its two companions stay as they are. -/
theorem ppuTick_sprites : (ppuTick cfg c p).ppu.sprites = (p.fetchTick c).sprites ∧
    (ppuTick cfg c p).ppu.sprCount = (p.fetchTick c).sprCount ∧
    (ppuTick cfg c p).ppu.spr0Possible = (p.fetchTick c).spr0Possible := by
  obtain ⟨r0, st, fb, sl, cy, fc, od, h⟩ := ppuTick_fetchTick c p cfg
  rw [h]
  exact ⟨rfl, rfl, rfl⟩

theorem Ppu.spriteTick_evaluates (h0 : 0 ≤ p.scanline) (hc : p.cycle = 257) : p.spriteTick c = p.evaluateSprites := by
  have h340 : ¬ p.evaluateSprites.cycle = 340 := fun h => by
    have : p.cycle = 340 := h
    omega
  unfold Ppu.spriteTick
  dsimp only
  rw [if_pos (show p.cycle = 257 ∧ 0 ≤ p.scanline from ⟨hc, h0⟩), if_neg h340]

theorem Ppu.spriteTick_fetches (hc : p.cycle = 340) : p.spriteTick c = p.fetchSprites c := by
  unfold Ppu.spriteTick
  dsimp only
  rw [if_neg (fun h => by omega : ¬ (p.cycle = 257 ∧ 0 ≤ p.scanline)), if_pos hc]

theorem Ppu.spriteTick_other (h : ¬ (p.cycle = 257 ∧ 0 ≤ p.scanline)) (h' : ¬ p.cycle = 340) : p.spriteTick c = p := by
  unfold Ppu.spriteTick
  dsimp only
  rw [if_neg h, if_neg h']

/-- The units after evaluation, from the sprites in range (R381). -/
theorem Ppu.fetchTick_evaluates (h0 : 0 ≤ p.scanline) (h1 : p.scanline ≤ 239) (hc : p.cycle = 257) :
    (p.fetchTick c).sprites = p.evaluateSprites.sprites ∧ (p.fetchTick c).sprCount = p.evaluateSprites.sprCount ∧
    (p.fetchTick c).spr0Possible = p.evaluateSprites.spr0Possible := by
  have hfetch : p.fetching = true := decide_eq_true (by omega)
  have hpre : p.preRenderClear = p := if_neg (by omega)
  have hk := p.backgroundTick_stage c
  have hfound := Ppu.spritesFound_congr p hk.place.scanline hk.kept.oam hk.kept.ctrl
  have hentry : (p.backgroundTick c).oamSprite = p.oamSprite := by
    unfold Ppu.oamSprite
    rw [hk.kept.oam]
  rw [Ppu.fetchTick, if_pos hfetch, hpre,
    Ppu.spriteTick_evaluates c _ (hk.place.scanline ▸ h0) (hk.place.cycle.trans hc)]
  unfold Ppu.evaluateSprites
  dsimp only
  rw [hfound, hentry]
  exact ⟨rfl, rfl, rfl⟩

/-- The number of sprites in range before sprite `n`. -/
def Ppu.foundBefore (n : Nat) : Nat := (List.range n).countP p.spriteInRange

theorem Ppu.spritesFound_length : p.spritesFound.length = p.foundBefore 64 := List.countP_eq_length_filter.symm

/-- What evaluation leaves, by the number of sprites in range before each (R381). -/
theorem Ppu.evaluateSprites_units : let q := p.evaluateSprites
    q.sprCount = min 8 (p.foundBefore 64) ∧ q.sprites.length = 8 ∧
    (∀ n, n < 64 → p.spriteInRange n = true → p.foundBefore n < 8 → q.sprites[p.foundBefore n]? = some (p.oamSprite n)) ∧
    (∀ k, min 8 (p.foundBefore 64) ≤ k → k < 8 → q.sprites[k]? = some ⟨0xFF, 0xFF, 0xFF, 0xFF, 0, 0⟩) ∧
    q.spr0Possible = p.spriteInRange 0 := by
  have hlen : ((p.spritesFound.take 8).map p.oamSprite).length = min 8 (p.foundBefore 64) := by
    rw [List.length_map, List.length_take, p.spritesFound_length]
  have hget (n : Nat) (hn : n < 64) (hr : p.spriteInRange n = true) (h8 : p.foundBefore n < 8) :
      (p.spritesFound.take 8)[p.foundBefore n]? = some n := by
    rw [List.getElem?_take_of_lt h8]
    exact getElem?_filter_range p.spriteInRange hn hr
  refine ⟨hlen, ?_, fun n hn hr h8 => ?_, fun k hk hk8 => ?_, ?_⟩
  · show (_ ++ List.replicate _ _).length = 8
    rw [List.length_append, List.length_replicate, hlen]
    omega
  · have hmap : ((p.spritesFound.take 8).map p.oamSprite)[p.foundBefore n]? = some (p.oamSprite n) := by
      rw [List.getElem?_map, hget n hn hr h8]
      rfl
    exact (List.getElem?_append_left (List.getElem?_eq_some_iff.1 hmap).1).trans hmap
  · refine (List.getElem?_append_right (hlen ▸ hk)).trans ?_
    rw [hlen, List.getElem?_replicate, if_pos (by omega)]
  · show (p.spritesFound.take 8).contains 0 = p.spriteInRange 0
    cases hr : p.spriteInRange 0 with
    | true => exact List.contains_iff_mem.2 (List.mem_of_getElem? (hget 0 (by decide) hr (Nat.zero_lt_succ 7)))
    | false =>
      refine Bool.eq_false_iff.2 fun hmem => ?_
      have hfound := List.mem_of_mem_take (List.contains_iff_mem.1 hmem)
      rw [(List.mem_filter.1 hfound).2] at hr
      exact Bool.noConfusion hr

/-! ## Fetch -/

/-- A flag and two fields side by side. -/
theorem or_fields_eq {h t z : Nat} (hh : h < 4) (ht : t < 256) (hz : z < 16) :
    BitVec.ofNat 14 (h * 4096) ||| BitVec.ofNat 14 (t * 16) ||| BitVec.ofNat 14 z =
      BitVec.ofNat 14 (h * 4096 + t * 16 + z) := by
  have hht : h * 4096 ||| t * 16 = (h * 256 + t) * 16 := by
    have := Nat.shiftLeft_add_eq_or_of_lt (show t * 16 < 2 ^ 12 by omega) h
    rw [Nat.shiftLeft_eq] at this
    refine this.symm.trans ?_
    omega
  have hz' : (h * 256 + t) * 16 ||| z = (h * 256 + t) * 16 + z := by
    have := Nat.shiftLeft_add_eq_or_of_lt (show z < 2 ^ 4 by omega) (h * 256 + t)
    rw [Nat.shiftLeft_eq] at this
    exact this.symm
  apply BitVec.eq_of_toNat_eq
  simp only [BitVec.toNat_or, BitVec.toNat_ofNat]
  rw [Nat.mod_eq_of_lt (by omega), Nat.mod_eq_of_lt (by omega), Nat.mod_eq_of_lt (by omega), Nat.mod_eq_of_lt (by omega),
    hht, hz']
  omega

/-- The row of a unit's pattern (R383). -/
def flippedRow (flip : Bool) (last row : Int) : Int := if flip = true then last - row else row

theorem spriteRow_eq {flip : Bool} {last row : Int} (h : 0 ≤ flippedRow flip last row) :
    spriteRow flip last row = BitVec.ofNat 14 (flippedRow flip last row).toNat := if_pos h

/-- The address of a unit's pattern, as a number, for a row of a tile (R383). -/
theorem Ppu.spriteAddr_eq (u : SpriteUnit) (row : Int) :
    let tall := bit p.ctrl 5
    let r := flippedRow (bit u.attr 7) (if tall = true then 15 else 7) row
    0 ≤ r → r < 16 → p.spriteAddr u row = BitVec.ofNat 14 (
      if tall = true then u.id.toNat % 2 * 4096 + (u.id.toNat / 2 * 2 + if 8 ≤ r then 1 else 0) * 16 + r.toNat % 8
      else (bit p.ctrl 3).toNat * 4096 + u.id.toNat * 16 + r.toNat) := by
  intro tall r h0 h16
  have hid := u.id.isLt
  unfold Ppu.spriteAddr
  cases htall : bit p.ctrl 5 with
  | true =>
    have hr : r = flippedRow (bit u.attr 7) 15 row := by simp only [r, tall, htall, if_true]
    have htable : (u.id &&& 1).setWidth 14 <<< 12 = BitVec.ofNat 14 (u.id.toNat % 2 * 4096) := by
      generalize u.id = id
      revert id
      decide
    have hrow : spriteRow (bit u.attr 7) 15 row = BitVec.ofNat 14 r.toNat := by rw [spriteRow_eq (hr ▸ h0), hr]
    have hge : (BitVec.ofNat 14 r.toNat : PpuAddr) ≥ 8 ↔ 8 ≤ r := by
      rw [ge_iff_le, BitVec.le_def, BitVec.toNat_ofNat, Nat.mod_eq_of_lt (by omega)]
      show 8 ≤ r.toNat ↔ 8 ≤ r
      omega
    have htile : ((u.id &&& 0xFE).setWidth 14 + if BitVec.ofNat 14 r.toNat ≥ 8 then 1 else 0 : PpuAddr) <<< 4 =
        BitVec.ofNat 14 ((u.id.toNat / 2 * 2 + if 8 ≤ r then 1 else 0) * 16) := by
      simp only [hge]
      generalize u.id = id
      by_cases h8 : 8 ≤ r
      · rw [if_pos h8, if_pos h8]
        revert id
        decide
      · rw [if_neg h8, if_neg h8]
        revert id
        decide
    have hlow : BitVec.ofNat 14 r.toNat &&& 7 = BitVec.ofNat 14 (r.toNat % 8) := by
      apply BitVec.eq_of_toNat_eq
      rw [and_low_toNat _ 7 3 rfl, BitVec.toNat_ofNat, BitVec.toNat_ofNat]
      omega
    have hone : (if 8 ≤ r then 1 else 0) ≤ 1 := by split <;> decide
    have htrue : tall = true := htall
    rw [if_pos rfl, if_pos htrue]
    dsimp only
    rw [hrow, htable, htile, hlow, or_fields_eq (by omega) (by omega) (by omega)]
  | false =>
    have hr : r = flippedRow (bit u.attr 7) 7 row := by simp only [r, tall, htall, Bool.false_eq_true, if_false]
    have htable : ofBit 14 (bit p.ctrl 3) <<< 12 = BitVec.ofNat 14 ((bit p.ctrl 3).toNat * 4096) := by
      cases bit p.ctrl 3 <;> rfl
    have htile : u.id.setWidth 14 <<< 4 = BitVec.ofNat 14 (u.id.toNat * 16) := by
      generalize u.id = id
      revert id
      decide
    have hno : ¬ tall = true := Bool.eq_false_iff.1 htall
    rw [if_neg Bool.false_ne_true, if_neg hno, htable, htile, spriteRow_eq (hr ▸ h0), ← hr,
      or_fields_eq (by cases bit p.ctrl 3 <;> decide) hid (by omega)]

/-- The two pattern bytes of a unit depend on no more than the memories, PPUCTRL, PPUMASK and the scanline (R382). -/
theorem Ppu.fetchSprite_congr {q : Ppu} (hk : p.Kept q) (hs : q.scanline = p.scanline) :
    q.fetchSprite c = p.fetchSprite c := by
  funext u
  have haddr (row : Int) : q.spriteAddr u row = p.spriteAddr u row := by
    unfold Ppu.spriteAddr
    rw [hk.ctrl]
  unfold Ppu.fetchSprite
  dsimp only
  rw [hs, haddr, ppuRead_congr c p _ hk.patternRam hk.nametable hk.palette hk.mask,
    ppuRead_congr c p _ hk.patternRam hk.nametable hk.palette hk.mask]

/-- The units after the fetch (R382). -/
theorem Ppu.fetchTick_fetches (h0 : -1 ≤ p.scanline) (h1 : p.scanline ≤ 239) (hc : p.cycle = 340) :
    (p.fetchTick c).sprites = mapFirst (p.fetchSprite c) p.sprCount p.sprites := by
  have hfetch : p.fetching = true := decide_eq_true ⟨h0, h1⟩
  have hpre : p.preRenderClear = p := if_neg (by omega)
  have hk := p.backgroundTick_stage c
  have hstep := p.backgroundTick_step c
  have hw : p.inWindow = false := decide_eq_false (by omega)
  have hcount : (p.backgroundTick c).sprCount = p.sprCount := (congrArg Ppu.sprCount hstep.frame :)
  have hsprites : (p.backgroundTick c).sprites = p.sprites := by
    rw [hstep.sprites, hw]
    rfl
  rw [Ppu.fetchTick, if_pos hfetch, hpre, Ppu.spriteTick_fetches c _ (hk.place.cycle.trans hc), Ppu.fetchSprites]
  dsimp only
  rw [hcount, hsprites, Ppu.fetchSprite_congr c p hk.kept hk.place.scanline]

theorem bit_reverse8 (b : Byte) {k : Nat} (h : k < 8) : bit (reverse8 b) k = bit b (7 - k) := by
  unfold bit reverse8
  rw [BitVec.getLsbD_reverse, BitVec.getMsbD_eq_getLsbD, decide_eq_true h, Bool.true_and]

/-- The bits of the two pattern bytes, in reversed order under the horizontal flip (R382). -/
theorem Ppu.fetchSprite_eq (u : SpriteUnit) : let w := p.fetchSprite c u
    let a := p.spriteAddr u (p.scanline - u.y.toNat)
    w = { u with lo := w.lo, hi := w.hi } ∧ ∀ k, k < 8 →
      let from_ := if bit u.attr 6 = true then 7 - k else k
      bit w.lo k = bit (ppuRead c p a) from_ ∧ bit w.hi k = bit (ppuRead c p (a + 8)) from_ := by
  intro w a
  unfold w Ppu.fetchSprite
  dsimp only
  cases bit u.attr 6 with
  | true => exact ⟨rfl, fun k hk => ⟨bit_reverse8 _ hk, bit_reverse8 _ hk⟩⟩
  | false => exact ⟨rfl, fun k hk => ⟨rfl, rfl⟩⟩

/-- Settles O50: evaluation by the number of sprites in range before each, fetch by the address and bit order of a unit. -/
theorem spriteEvaluationAndFetch : Obligations.SpriteEvaluationAndFetch := by
  unfold Obligations.SpriteEvaluationAndFetch
  refine ⟨fun s h0 h1 hc => ?_, fun s h0 h1 hc i u hu => ?_⟩
  · intro t oam inRange before
    have hin : s.ppu.spriteInRange = inRange := by
      funext n
      have hy : Store.read s.ppu.oam (4 * n) = oam (4 * n) := rfl
      refine decide_eq_decide.mpr ?_
      rw [hy, Ppu.spriteHeight]
      by_cases htall : bit s.ppu.ctrl 5 = true
      · rw [if_pos htall, if_pos htall]
        omega
      · rw [if_neg htall, if_neg htall]
        omega
    have hbefore : s.ppu.foundBefore = before := by
      funext n
      rw [Ppu.foundBefore, hin]
    obtain ⟨hs, hn, hz⟩ := ppuTick_sprites s.cart s.ppu s.cfg
    obtain ⟨es, en, ez⟩ := s.ppu.fetchTick_evaluates s.cart h0 h1 hc
    obtain ⟨hcount, hlen, hfound, hblank, hzero⟩ := s.ppu.evaluateSprites_units
    change t.ppu.sprites = _ at hs
    change t.ppu.sprCount = _ at hn
    change t.ppu.spr0Possible = _ at hz
    rw [hbefore] at hcount hfound hblank
    rw [hin] at hfound hzero
    rw [hs, hn, hz, es, en, ez]
    refine ⟨hcount, hlen, hfound, hblank, hzero, ?_⟩
    have hbit : bit t.ppu.status 5 = _ := bit_ppuTick_status s.cart s.ppu s.cfg 5 (.inl (by decide))
    rw [hbit, if_neg (by simp), s.ppu.fetchTick_status, if_neg (by omega), s.ppu.spritesFound_length, hbefore]
    by_cases h8 : 8 < before 64
    · rw [if_pos ⟨decide_eq_true (by omega), hc, h0, h8⟩, bit_setBit, decide_eq_true h8]
      rfl
    · rw [if_neg fun h => h8 h.2.2.2, decide_eq_false h8]
      rfl
  · obtain ⟨hs, -, -⟩ := ppuTick_sprites s.cart s.ppu s.cfg
    change (ppuClock s).ppu.sprites = _ at hs
    rw [hs, s.ppu.fetchTick_fetches s.cart h0 h1 hc, getElem?_mapFirst, hu]
    by_cases hi : i < s.ppu.sprCount
    · rw [if_pos hi]
      obtain ⟨hw, hbits⟩ := s.ppu.fetchSprite_eq s.cart u
      refine ⟨_, rfl, hw, fun hle => absurd hi (Nat.not_lt.2 hle), ?_⟩
      intro tall row r base _ hr0 hr16
      have haddr : s.ppu.spriteAddr u row = BitVec.ofNat 14 base := s.ppu.spriteAddr_eq u row hr0 hr16
      have haddr8 : s.ppu.spriteAddr u row + 8 = BitVec.ofNat 14 (base + 8) := by
        rw [haddr]
        exact (BitVec.ofNat_add base 8).symm
      rw [← haddr, ← haddr8]
      exact hbits
    · rw [if_neg hi]
      exact ⟨u, rfl, rfl, fun _ => rfl, fun hlt => absurd hlt hi⟩

end Sys2Proof.Machine
end

section
/-! SUPPORT and the settlement of the background fetches: the fields after the fetches of a tick, the shift of the sprite
units, and the cells that a tick keeps (R370, R374 to R378, R380). -/

namespace Sys2Proof.Machine

variable (c : Option Cartridge) (p : Ppu)

/-- On a fetching scanline the clearing and the sprite part leave the background's fields alone (R370). -/
theorem Ppu.fetchTick_fields (hf : p.fetching = true) : p.BackgroundFields c (p.fetchTick c) := by
  obtain ⟨sp, n, st, hpre⟩ := p.preRenderClear_eq
  obtain ⟨sp', n', z, st', hsprite⟩ := Ppu.spriteTick_eq c (p.preRenderClear.backgroundTick c)
  rw [Ppu.fetchTick, if_pos hf, hsprite, hpre]
  obtain ⟨-, -, hv, htile, hattrib, hlsb, hmsb, hpatLo, hpatHi, hattLo, hattHi⟩ :=
    Ppu.backgroundTick_step c { p with sprites := sp, sprCount := n, status := st }
  exact ⟨hv, htile, hattrib, hlsb, hmsb, hpatLo, hpatHi, hattLo, hattHi⟩

/-- The background's fields after a whole tick of a fetching scanline. -/
theorem ppuTick_fields (cfg : Config) (hf : p.fetching = true) : p.BackgroundFields c (ppuTick cfg c p).ppu := by
  obtain ⟨r0, st, fb, sl, cy, fc, od, h⟩ := ppuTick_fetchTick c p cfg
  obtain ⟨hv, htile, hattrib, hlsb, hmsb, hpatLo, hpatHi, hattLo, hattHi⟩ := p.fetchTick_fields c hf
  rw [h]
  exact ⟨hv, htile, hattrib, hlsb, hmsb, hpatLo, hpatHi, hattLo, hattHi⟩

theorem Ppu.fetchTick_idle (hf : p.fetching = false) : p.fetchTick c = p := if_neg (Bool.eq_false_iff.1 hf)

/-- The sprite units' part of `UpdateShifters()` (R380). -/
theorem Ppu.updateShifters_sprites : p.updateShifters.sprites =
    if bit p.mask 4 = true ∧ 1 ≤ p.cycle ∧ p.cycle ≤ 257 then mapFirst SpriteUnit.shift p.sprCount p.sprites
    else p.sprites := by
  unfold Ppu.updateShifters
  dsimp only
  cases bit p.mask 3 <;> simp only [Bool.false_eq_true, if_false, if_true] <;> split <;> rfl

theorem SpriteUnit.shift_eq (u : SpriteUnit) : u.shift =
    if u.x = 0 then { u with lo := u.lo <<< 1, hi := u.hi <<< 1 } else { u with x := u.x - 1 } := by
  have hx : u.x > 0 ↔ ¬ u.x = 0 := by
    generalize u.x = x
    revert x
    decide
  unfold SpriteUnit.shift
  by_cases h : u.x = 0
  · rw [if_neg fun h' => hx.1 h' h, if_pos h]
  · rw [if_pos (hx.2 h), if_neg h]

/-- A sprite unit after the fetches, but for the ticks that clear, evaluate or fetch the units (R380). -/
theorem Ppu.fetchTick_unit
    (h : (p.fetching && decide ((p.scanline = -1 ∧ p.cycle = 1) ∨ (0 ≤ p.scanline ∧ p.cycle = 257) ∨ p.cycle = 340)) = false)
    {i : Nat} {u : SpriteUnit} (hu : p.sprites[i]? = some u) : (p.fetchTick c).sprites[i]? = some (
      if (p.fetching && p.inWindow && bit p.mask 4 && decide (p.cycle ≤ 257)) = false ∨ p.sprCount ≤ i then u
      else u.shift) := by
  cases hf : p.fetching with
  | false =>
    rw [p.fetchTick_idle c hf, hu]
    rfl
  | true =>
    have hno : ¬ ((p.scanline = -1 ∧ p.cycle = 1) ∨ (0 ≤ p.scanline ∧ p.cycle = 257) ∨ p.cycle = 340) := by
      rw [hf] at h
      exact of_decide_eq_false h
    have hpre : p.preRenderClear = p := if_neg fun h => hno (.inl h)
    have hk := (p.backgroundTick_stage c).place
    have hother : (p.backgroundTick c).spriteTick c = p.backgroundTick c := by
      apply Ppu.spriteTick_other
      · rw [hk.cycle, hk.scanline]
        omega
      · rw [hk.cycle]
        omega
    rw [Ppu.fetchTick, if_pos hf, hpre, hother, (p.backgroundTick_step c).sprites, p.updateShifters_sprites]
    cases hw : p.inWindow with
    | false =>
      rw [if_neg Bool.false_ne_true, hu]
      rfl
    | true =>
      have hone : 1 ≤ p.cycle := by
        have := of_decide_eq_true hw
        omega
      rw [if_pos rfl]
      by_cases hshift : bit p.mask 4 = true ∧ p.cycle ≤ 257
      · rw [if_pos ⟨hshift.1, hone, hshift.2⟩, getElem?_mapFirst, hu, hshift.1, decide_eq_true hshift.2]
        by_cases hi : i < p.sprCount
        · rw [if_pos hi, if_neg (by simpa using hi)]
          rfl
        · rw [if_neg hi, if_pos (.inr (Nat.not_lt.1 hi))]
      · rw [if_neg fun h => hshift ⟨h.1, h.2.2⟩, hu, if_pos]
        refine .inl ?_
        simpa using fun hm => Nat.not_le.1 fun hle => hshift ⟨hm, hle⟩

/-- A tick of the PPU keeps every memory cell: its notification changes the mapper's registers only (R385). -/
theorem ppuClock_sameMemory (s : State) : SameMemory s (ppuClock s) := by
  intro cell
  obtain ⟨hpal, hnt, hoam, hpat, -⟩ := ppuTick_keeps s.cart s.ppu s.cfg
  have hscan (k : Cartridge) : k.scanline.prgRam = k.prgRam ∧ k.scanline.prgRom = k.prgRom ∧ k.scanline.chr = k.chr := by
    unfold Cartridge.scanline
    split <;> exact ⟨rfl, rfl, rfl⟩
  obtain hcart | hcart := ppuTick_cart s.cart s.ppu s.cfg
  · exact applyPpu_cell s _ cell hcart hnt hpal hoam hpat
  · have hstep : (ppuClock s).cart = s.cart.map Cartridge.scanline := hcart
    have hcell (f : Cartridge → Memory) (hf : ∀ k, f k.scanline = f k) (i : Nat) :
        (match (ppuClock s).cart with | some k => Store.read (f k) i | none => 0) =
          match s.cart with | some k => Store.read (f k) i | none => 0 := by
      rw [hstep]
      cases s.cart with
      | none => rfl
      | some k => exact congrArg (Store.read · i) (hf k)
    cases cell with
    | ram i => rfl
    | prgRam i => exact hcell Cartridge.prgRam (fun k => (hscan k).1) i
    | prgRom i => exact hcell Cartridge.prgRom (fun k => (hscan k).2.1) i
    | chr i => exact hcell Cartridge.chr (fun k => (hscan k).2.2) i
    | patternRam i => exact congrArg (Store.read · i) hpat
    | nametable i => exact congrArg (Store.read · i) hnt
    | palette i => exact congrArg (Store.read · i) hpal
    | oam i => exact congrArg (Store.read · i) hoam

/-! ## The fields as numbers -/

/-- A background shifter after the tick, as a number. -/
theorem Ppu.stepped_toNat (x : BitVec 16) (b : Byte) :
    let shifted := if (p.inWindow && bit p.mask 3) = true then 2 * x.toNat % 65536 else x.toNat
    (p.stepped x b).toNat = if p.atSlot 0 = true then shifted / 256 * 256 + b.toNat else shifted := by
  intro shifted
  have hshift : (if (p.inWindow && bit p.mask 3) = true then x <<< 1 else x).toNat = shifted := by
    unfold shifted
    split
    · rw [BitVec.toNat_shiftLeft, Nat.shiftLeft_eq, Nat.mul_comm]
    · rfl
  unfold Ppu.stepped
  dsimp only
  split
  · rw [toNat_putField_low, hshift]
  · exact hshift

theorem attribByte_toNat (b : Bool) : (attribByte b).toNat = if b = true then 255 else 0 := by cases b <;> rfl

/-- Settles O35: on a fetching scanline from the fields of the background part, elsewhere as nothing is fetched. -/
theorem backgroundFetches : Obligations.BackgroundFetches := by
  unfold Obligations.BackgroundFetches
  intro s p q n v read line window slot shifted loaded pattern
  obtain ⟨r0, st, fb, sl, cy, fc, od, hq⟩ := ppuTick_fetchTick s.cart s.ppu s.cfg
  change q = _ at hq
  obtain ⟨-, -, -, -, hkept⟩ := ppuTick_keeps s.cart s.ppu s.cfg
  obtain ⟨hctrl, hmask, ht, hfineX, hw, hbuffer, hoamaddr⟩ := hkept
  have hunits : (line && decide ((p.scanline = -1 ∧ n = 1) ∨ (0 ≤ p.scanline ∧ n = 257) ∨ n = 340)) = false →
      ∀ (i : Nat) (u : SpriteUnit), p.sprites[i]? = some u → q.sprites[i]? = some (
        if (window && bit p.mask 4 && decide (n ≤ 257)) = false ∨ p.sprCount ≤ i then u
        else if u.x = 0 then { u with lo := u.lo <<< 1, hi := u.hi <<< 1 }
        else { u with x := u.x - 1 }) := by
    intro h i u hu
    rw [hq, ← u.shift_eq]
    exact p.fetchTick_unit s.cart h hu
  have hrest := And.intro hunits (And.intro hctrl (And.intro hmask (And.intro ht (And.intro hfineX (And.intro hw
    (And.intro hbuffer (And.intro hoamaddr (ppuClock_sameMemory s))))))))
  cases hf : p.fetching with
  | true =>
    have hline : line = true := hf
    have hwindow : window = p.inWindow := by
      show (line && _) = _
      rw [hline]
      rfl
    have hslot (k : Nat) : slot k = p.atSlot k := congrArg (· && decide ((n - 1) % 8 = k)) hwindow
    have hloaded (x : BitVec 16) (b : Byte) : (p.stepped x b).toNat = loaded x b.toNat := by
      rw [p.stepped_toNat]
      simp only [loaded, shifted, hslot, hwindow]
    obtain ⟨gv, gtile, gattrib, glsb, gmsb, gpatLo, gpatHi, gattLo, gattHi⟩ := ppuTick_fields s.cart p s.cfg hf
    have hpattern (o : Nat) : ppuRead s.cart p (p.patternAddr (BitVec.ofNat 14 o)) = pattern o :=
      congrArg (ppuRead s.cart p) (p.patternAddr_eq o)
    refine ⟨?_, ?_, ?_, ?_, ?_, ?_, ?_, ?_, ?_, hrest⟩
    · rw [hline, Bool.true_and, hslot]
      exact gv
    · refine gtile.trans ?_
      rw [hline, hslot, p.nametableAddr_eq]
      simp only [Bool.true_and, Bool.or_eq_true, decide_eq_true_eq]
      rfl
    · refine (congrArg BitVec.toNat gattrib).trans ?_
      rw [hslot, apply_ite BitVec.toNat, p.attributeFetch_toNat s.cart]
    · refine glsb.trans ?_
      rw [hslot]
      exact congrArg (if p.atSlot 4 = true then · else _) (hpattern 0)
    · refine gmsb.trans ?_
      rw [hslot]
      exact congrArg (if p.atSlot 6 = true then · else _) (hpattern 8)
    · exact (congrArg BitVec.toNat gpatLo).trans (hloaded _ _)
    · exact (congrArg BitVec.toNat gpatHi).trans (hloaded _ _)
    · rw [← attribByte_toNat]
      exact (congrArg BitVec.toNat gattLo).trans (hloaded _ _)
    · rw [← attribByte_toNat]
      exact (congrArg BitVec.toNat gattHi).trans (hloaded _ _)
  | false =>
    have hline : line = false := hf
    have hwindow : window = false := by
      show (line && _) = _
      rw [hline]
      rfl
    have hslot (k : Nat) : slot k = false := congrArg (· && decide ((n - 1) % 8 = k)) hwindow
    have hloaded (x : BitVec 16) (b : Nat) : x.toNat = loaded x b := by
      simp only [loaded, shifted, hslot, hwindow, Bool.false_and, Bool.false_eq_true, if_false]
    have hidle := p.fetchTick_idle s.cart hf
    refine ⟨?_, ?_, ?_, ?_, ?_, ?_, ?_, ?_, ?_, hrest⟩
    all_goals
      rw [hq, hidle]
      simp only [v, p, hline, hslot, ← hloaded, Bool.false_and, Bool.or_self, if_true, Bool.false_eq_true, if_false]

end Sys2Proof.Machine
end

section
/-! SUPPORT and the settlement of compositing: the layers of a pixel and their choice, as numbers, and the tick that draws
one (R390 to R394). -/

namespace Sys2Proof.Machine

variable (c : Option Cartridge) (p : Ppu)

/-! ## The layers and the choice between them -/

theorem pixelAddr_eq (px : BitVec 2) (pal : BitVec 3) :
    pixelAddr px pal = BitVec.ofNat 14 (0x3F00 + (4 * pal.toNat + px.toNat)) := by
  revert px pal
  decide

/-- The background's pixel and palette, as numbers (R390). -/
theorem Ppu.backgroundPixel_toNat (col : Nat) :
    let on := bit p.mask 3 && (bit p.mask 1 || decide (8 ≤ col))
    let i := 15 - p.fineX.toNat
    (p.backgroundPixel col).1.toNat =
      (if on = true then 2 * (bit p.bgPatHi i).toNat + (bit p.bgPatLo i).toNat else 0) ∧
    (p.backgroundPixel col).2.toNat =
      if on = true then 2 * (bit p.bgAttHi i).toNat + (bit p.bgAttLo i).toNat else 0 := by
  intro on i
  have hon : (bit p.mask 3 = true ∧ (bit p.mask 1 = true ∨ 8 ≤ col)) ↔ on = true := by
    simp only [on, Bool.and_eq_true, Bool.or_eq_true, decide_eq_true_eq]
  unfold Ppu.backgroundPixel
  simp only [hon]
  split
  · exact ⟨toNat_twoBits _ _, toNat_twoBits _ _⟩
  · exact ⟨rfl, rfl⟩

/-- The pixel of a sprite unit. -/
def SpriteUnit.pixel (u : SpriteUnit) : BitVec 2 := twoBits (bit u.hi 7) (bit u.lo 7)

/-- The sprite pixel is that of the first opaque unit at its left edge (R391). -/
theorem Ppu.spritePixel_eq (col : Nat) :
    let unit (k : Nat) : SpriteUnit := p.sprites.getD k ⟨0, 0, 0, 0, 0, 0⟩
    let opaqueAt (k : Nat) : Bool := decide ((unit k).x = 0) &&
      decide (2 * (bit (unit k).hi 7).toNat + (bit (unit k).lo 7).toNat ≠ 0)
    p.spritePixel col = (if (bit p.mask 4 && (bit p.mask 2 || decide (8 ≤ col))) = true
      then (List.range p.sprCount).find? opaqueAt else none).map fun k => (k, (unit k).pixel, (unit k).attr) := by
  intro unit opaqueAt
  have hfind := firstSpritePixel_eq_find p.sprites p.sprCount 0
  rw [List.drop_zero, ← List.range_eq_range'] at hfind
  unfold Ppu.spritePixel
  simp only [Bool.and_eq_true, Bool.or_eq_true, decide_eq_true_eq]
  split
  · exact hfind
  · rfl

/-- The palette address of the pixel that wins (R392, R394). -/
def pixelAddress (bg bgPal fg fgPal : Nat) (behind : Bool) : Nat := 0x3F00 +
  if bg = 0 ∧ fg = 0 then 0
  else if fg = 0 ∨ (bg ≠ 0 ∧ behind = true) then 4 * bgPal + bg
  else 4 * fgPal + fg

theorem choosePixel_none (b : BitVec 2 × BitVec 2) : let chosen := choosePixel b none
    pixelAddr chosen.1 chosen.2.1 = BitVec.ofNat 14 (pixelAddress b.1.toNat b.2.toNat 0 0 false) ∧
    chosen.2.2 = false := by
  obtain ⟨px, pal⟩ := b
  revert px pal
  decide

theorem pixelAddress_opaque {fg : Nat} (h : fg ≠ 0) (bg bgPal fgPal : Nat) (behind : Bool) :
    pixelAddress bg bgPal fg fgPal behind =
      0x3F00 + if bg ≠ 0 ∧ behind = true then 4 * bgPal + bg else 4 * fgPal + fg := by
  unfold pixelAddress
  simp only [h, and_false, false_or, if_false]

theorem choosePixel_some (b : BitVec 2 × BitVec 2) (k : Nat) {px : BitVec 2} (hpx : px.toNat ≠ 0) (attr : Byte) :
    let chosen := choosePixel b (some (k, px, attr))
    pixelAddr chosen.1 chosen.2.1 =
      BitVec.ofNat 14 (pixelAddress b.1.toNat b.2.toNat px.toNat (attr.toNat % 4 + 4) (bit attr 5)) ∧
    chosen.2.2 = decide (b.1.toNat ≠ 0) := by
  obtain ⟨bpx, bpal⟩ := b
  have hpal : ((field attr 0 2 : BitVec 2).setWidth 3 + 4 : BitVec 3).toNat = attr.toNat % 4 + 4 := by
    have hlow : (field attr 0 2 : BitVec 2).toNat = attr.toNat % 4 := field_zero_toNat attr 2
    generalize (field attr 0 2 : BitVec 2) = a at hlow
    rw [← hlow]
    clear hlow
    revert a
    decide
  have hback : (bpal.setWidth 3 : BitVec 3).toNat = bpal.toNat := by
    revert bpal
    decide
  have hzero : bpx = 0 ↔ bpx.toNat = 0 := by
    revert bpx
    decide
  intro chosen
  unfold chosen choosePixel
  dsimp only
  rw [pixelAddress_opaque hpx]
  simp only [hzero]
  by_cases h0 : bpx.toNat = 0
  · rw [if_pos h0, if_neg fun h => h.1 h0, decide_eq_false fun h => h h0, pixelAddr_eq, hpal]
    exact ⟨rfl, rfl⟩
  · rw [if_neg h0, decide_eq_true h0]
    cases bit attr 5 with
    | true =>
      rw [if_pos rfl, if_pos ⟨h0, rfl⟩, pixelAddr_eq, hback]
      exact ⟨rfl, rfl⟩
    | false =>
      rw [if_neg Bool.false_ne_true, if_neg fun h => Bool.false_ne_true h.2, pixelAddr_eq, hpal]
      exact ⟨rfl, rfl⟩

/-! ## The tick that draws -/

/-- A drawing tick, as the pixel of the fetched PPU and the next cycle (R371, R394). -/
theorem ppuTick_draws (cfg : Config) (hd : (p.fetched c cfg).Draws) : let f := p.fetched c cfg
    (ppuTick cfg c p).ppu =
      { f.composePixel (ppuTick cfg c p).cart (f.cycle - 1) f.scanline.toNat with cycle := f.cycle + 1 } := by
  intro f
  obtain ⟨h0, h239, h1, h256⟩ := id hd
  have hv : f.withVblank = f := if_neg (by
    rw [Ppu.atVblank, decide_eq_true_eq]
    show ¬ ((p.fetched c cfg).scanline = 241 ∧ _)
    omega)
  rw [ppuTick_stages]
  change (f.withVblank.pixelTick _).advance = _
  have hpixel (k : Option Cartridge) : f.pixelTick k = f.composePixel k (f.cycle - 1) f.scanline.toNat := if_pos hd
  rw [hv, hpixel]
  exact if_neg (show ¬ (p.fetched c cfg).cycle + 1 = 341 by omega)

/-- The sprite-0 hit of an opaque pixel of sprite 0 (R393). -/
def Ppu.hitAt (col : Nat) : Bool := p.spr0Possible && bit p.mask 3 && bit p.mask 4 &&
  ((bit p.mask 1 && bit p.mask 2) || decide (8 ≤ col))

theorem bit_hitFlag (st : Byte) (hit : Bool) : bit (if hit = true then setBit st 6 true else st) 6 = (bit st 6 || hit) := by
  cases hit with
  | true =>
    rw [if_pos rfl, bit_setBit, if_pos rfl, Bool.or_true]
    rfl
  | false => exact (Bool.or_false _).symm

/-- The hit window of R393, by the column. -/
theorem Ppu.sprite0Hit_eq {col : Nat} (h1 : 1 ≤ p.cycle) (h256 : p.cycle ≤ 256) (hcol : p.cycle - 1 = col) :
    p.sprite0Hit = (p.spr0Rendering && p.hitAt col) := by
  have hwindow : decide ((if (bit p.mask 1 && bit p.mask 2) = true then 1 else 9) ≤ p.cycle ∧ p.cycle ≤ 256) =
      ((bit p.mask 1 && bit p.mask 2) || decide (8 ≤ col)) := by
    cases bit p.mask 1 && bit p.mask 2 with
    | true => exact decide_eq_true ⟨h1, h256⟩
    | false =>
      rw [if_neg Bool.false_ne_true, Bool.false_or]
      refine decide_eq_decide.mpr ?_
      omega
  rw [Ppu.sprite0Hit, hwindow, Ppu.hitAt]
  cases p.spr0Rendering
  · rw [Bool.and_false]
    rfl
  · rw [Bool.and_true]
    rfl

/-- The pixel of a drawing tick, from the PPU after the tick: the layers read nothing that the pixel changes. -/
theorem ppuTick_pixel (cfg : Config) (hd : (p.fetched c cfg).Draws) : let t := ppuTick cfg c p
    let q := t.ppu
    let col := q.cycle - 2
    let sprite := q.spritePixel col
    let chosen := choosePixel (q.backgroundPixel col) sprite
    q.spr0Rendering = isSprite0 sprite ∧
    q.framebuffer = Store.write p.framebuffer (256 * p.scanline.toNat + col)
      (field (ppuRead t.cart q (pixelAddr chosen.1 chosen.2.1)) 0 6) ∧
    bit q.status 6 = (bit p.status 6 || (chosen.2.2 && (isSprite0 sprite && q.hitAt col))) := by
  intro t q col sprite chosen
  obtain ⟨h0, h239, h1, h256⟩ := id hd
  have hq : q = _ := ppuTick_draws c p cfg hd
  have hst : bit (p.fetched c cfg).status 6 = bit p.status 6 := by
    have hline := p.fetched_scanline c cfg
    rw [p.fetched_eq c cfg]
    dsimp only
    rw [p.fetchTick_status, if_neg (by omega)]
    split
    · exact bit_setBit _ _ _ _
    · rfl
  have hcol : (p.fetched c cfg).cycle - 1 = col := by
    have hcycle : q.cycle = (p.fetched c cfg).cycle + 1 := by rw [hq]
    show _ = q.cycle - 2
    omega
  have hsprite : (p.fetched c cfg).spritePixel col = sprite := by
    show _ = q.spritePixel col
    rw [hq]
    rfl
  have hchosen : choosePixel ((p.fetched c cfg).backgroundPixel col) sprite = chosen := by
    show _ = choosePixel (q.backgroundPixel col) sprite
    rw [hq]
    rfl
  have hread (a : PpuAddr) : ppuRead t.cart (p.fetched c cfg) a = ppuRead t.cart q a := by
    rw [hq]
    rfl
  have hhit : (p.fetched c cfg).hitAt col = q.hitAt col := by
    rw [hq]
    rfl
  rw [hcol] at hq
  unfold Ppu.composePixel at hq
  dsimp only at hq
  rw [hsprite, hchosen, show ppuTick cfg c p = t from rfl] at hq
  clear_value chosen sprite col q t
  refine ⟨by rw [hq], ?_, ?_⟩
  · rw [← hread, hq, ← p.fetched_framebuffer c cfg, ← p.fetched_scanline c cfg]
  · have hwin : (chosen.2.2 && { p.fetched c cfg with spr0Rendering := isSprite0 sprite }.sprite0Hit) =
        (chosen.2.2 && (isSprite0 sprite && q.hitAt col)) := by
      rw [Ppu.sprite0Hit_eq { p.fetched c cfg with spr0Rendering := isSprite0 sprite } h1 h256 hcol, ← hhit]
      rfl
    rw [← hst, ← hwin, ← bit_hitFlag, hq]

/-- A tick that draws nothing leaves the framebuffer (R394). -/
theorem ppuTick_framebuffer_idle (cfg : Config) (hd : ¬ (p.fetched c cfg).Draws) :
    (ppuTick cfg c p).ppu.framebuffer = p.framebuffer := by
  have hadvance (q : Ppu) : q.advance.framebuffer = q.framebuffer := by
    obtain ⟨sl, cy, fc, od, h⟩ := q.advance_eq
    rw [h]
  have hpixel (k : Option Cartridge) : (p.fetched c cfg).withVblank.pixelTick k = (p.fetched c cfg).withVblank := by
    rw [Ppu.withVblank_eq]
    exact if_neg hd
  rw [ppuTick_stages]
  dsimp only
  rw [hadvance, hpixel, Ppu.withVblank_eq]
  exact p.fetched_framebuffer c cfg

/-- Whether a tick draws, by the cycle after it (R371). -/
theorem ppuTick_draws_iff (cfg : Config) : let q := (ppuTick cfg c p).ppu
    (p.fetched c cfg).Draws ↔ 0 ≤ p.scanline ∧ p.scanline ≤ 239 ∧ 2 ≤ q.cycle ∧ q.cycle ≤ 257 := by
  obtain ⟨hc, -⟩ := ppuTick_position c p cfg
  rw [← p.fetched_cycle c cfg] at hc
  intro q
  change q.cycle = _ at hc
  unfold Ppu.Draws
  rw [hc, p.fetched_scanline c cfg]
  by_cases h340 : (p.fetched c cfg).cycle = 340
  · rw [if_pos h340]
    omega
  · rw [if_neg h340]
    omega

/-- Settles O38, from the layers and their choice as numbers and the tick that draws. -/
theorem compositing : Obligations.Compositing := by
  unfold Obligations.Compositing
  intro s t p col drawn left two i bgOn bg bgPal unit opaqueAt first fg fgPal behind address
  have hdrawn : (s.ppu.fetched s.cart s.cfg).Draws ↔ drawn := ppuTick_draws_iff s.cart s.ppu s.cfg
  refine ⟨fun hd => ?_, fun hd => ⟨?_, fun hclear => ?_⟩⟩
  · obtain ⟨hrender, hfb, hst⟩ := ppuTick_pixel s.cart s.ppu s.cfg (hdrawn.2 hd)
    have hbg : (p.backgroundPixel col).1.toNat = bg := (p.backgroundPixel_toNat col).1
    have hbgPal : (p.backgroundPixel col).2.toNat = bgPal := (p.backgroundPixel_toNat col).2
    have hsprite : p.spritePixel col = first.map fun k => (k, (unit k).pixel, (unit k).attr) := p.spritePixel_eq col
    change p.spr0Rendering = isSprite0 (p.spritePixel col) at hrender
    change p.framebuffer = Store.write s.ppu.framebuffer (256 * s.ppu.scanline.toNat + col)
      (field (ppuRead t.cart p (pixelAddr (choosePixel (p.backgroundPixel col) (p.spritePixel col)).1
        (choosePixel (p.backgroundPixel col) (p.spritePixel col)).2.1)) 0 6) at hfb
    change bit p.status 6 = (bit s.ppu.status 6 || ((choosePixel (p.backgroundPixel col) (p.spritePixel col)).2.2 &&
      (isSprite0 (p.spritePixel col) && p.hitAt col))) at hst
    have hzero : isSprite0 (p.spritePixel col) = decide (first = some 0) := by
      rw [hsprite]
      rcases first with _ | k
      · rfl
      · exact decide_eq_decide.mpr (Option.some_inj (a := k) (b := 0)).symm
    have hfound (k : Nat) (h : first = some k) : opaqueAt k = true := by
      have h' : (if (bit p.mask 4 && left 2) = true then (List.range p.sprCount).find? opaqueAt else none) = some k := h
      split at h'
      · exact List.find?_some h'
      · cases h'
    have hchosen : pixelAddr (choosePixel (p.backgroundPixel col) (p.spritePixel col)).1
          (choosePixel (p.backgroundPixel col) (p.spritePixel col)).2.1 = BitVec.ofNat 14 address ∧
        (choosePixel (p.backgroundPixel col) (p.spritePixel col)).2.2 = (decide (bg ≠ 0) && decide (fg ≠ 0)) := by
      have haddress : address = pixelAddress bg bgPal fg fgPal behind := rfl
      rw [hsprite, haddress, ← hbg, ← hbgPal]
      rcases hf : first with _ | k
      · have hfg : fg = 0 := by simp only [fg, hf]
        have hfgPal : fgPal = 0 := by simp only [fgPal, hf]
        have hbehind : behind = false := by simp only [behind, hf]
        rw [hfg, hfgPal, hbehind]
        obtain ⟨ha, ho⟩ := choosePixel_none (p.backgroundPixel col)
        exact ⟨ha, ho.trans (Bool.and_false _).symm⟩
      · have hfg : fg = (unit k).pixel.toNat := by
          simp only [fg, hf]
          exact (toNat_twoBits _ _).symm
        have hfgPal : fgPal = (unit k).attr.toNat % 4 + 4 := by simp only [fgPal, hf]
        have hbehind : behind = bit (unit k).attr 5 := by simp only [behind, hf]
        have hpx : (unit k).pixel.toNat ≠ 0 := by
          rw [SpriteUnit.pixel, toNat_twoBits]
          exact of_decide_eq_true (Bool.and_eq_true_iff.1 (hfound k hf)).2
        rw [hfg, hfgPal, hbehind, decide_eq_true hpx, Bool.and_true]
        exact choosePixel_some (p.backgroundPixel col) k hpx (unit k).attr
    obtain ⟨haddr, hopaque⟩ := hchosen
    rw [haddr] at hfb
    rw [hopaque, hzero] at hst
    refine ⟨?_, fun k hk => ?_, hrender.trans hzero, ?_⟩
    · rw [hfb, Store.read_write_same]
      exact field_zero_toNat _ 6
    · rw [hfb, Store.read_write_other _ _ _ _ hk]
    · rw [hst, Ppu.hitAt]
      simp only [Bool.and_assoc, Bool.and_left_comm (decide (first = some 0))]
  · exact ppuTick_framebuffer_idle s.cart s.ppu s.cfg fun h => hd (hdrawn.1 h)
  · have hbit : bit p.status 6 = _ :=
      bit_ppuTick_status s.cart s.ppu s.cfg 6 (.inr fun h => hd (hdrawn.1 h))
    rw [hbit, if_neg (by simp), s.ppu.fetchTick_status, if_neg hclear]
    split
    · rw [bit_setBit, if_neg (by decide)]
    · rfl

end Sys2Proof.Machine
end
